-- ==== Sys2Proof/Word.lean ====
section
/-!
DEFINITION. The bit-vector widths the manual's layouts use, and the wrap of uptime.
-/

namespace Sys2Proof

/-- One byte of a frame or record body (R168). -/
abbrev Byte := BitVec 8

/-- A two-byte field of a frame, little-endian on the link (R158). -/
abbrev Half := BitVec 16

/-- A four-byte field of a frame. Uptime in seconds is one of these: it wraps to 0 after 4,294,967,295
(Conventions, Units). -/
abbrev Word := BitVec 32

end Sys2Proof
end

