-- ==== Sys2Proof/Syntax.lean ====
section
/-!
DEFINITION. The commands of the block: one constructor of `Instr` for each row of spec/opcode_table.json, with the
row's operands. A request carries its link and the fields of its body (R169) as they stand on the wire, so that every
out-of-range value can be sent; an event carries the record it reaches.
-/

namespace Sys2Proof

/-- The three links (Conventions, Numbering). -/
inductive Link where
  | a | b | c
  deriving DecidableEq, Repr

/-- Zones Z1..Z8; index 0 is Z1. -/
abbrev ZoneId := Fin 8

/-- Probe lines 1..16; index 0 is line 1. -/
abbrev LineId := Fin 16

/-- Output channels O1..O4; index 0 is O1. -/
abbrev OutId := Fin 4

/-- One character as the receiver samples it: 8 data bits, the parity bit and the stop bit (R158). -/
structure Character where
  data : Byte
  parity : Bool
  stop : Bool
  deriving DecidableEq, Repr

/-- The line block of LINE SET, 21 bytes (R169). -/
structure LineBlock where
  kind : Byte
  edge : Byte
  polarity : Byte
  window : Byte
  stallMs : Byte
  rhRef : Word
  rhGain : Word
  rhOffset : Half
  tGain : Word
  tOffset : Half
  deriving DecidableEq, Repr

/-- The zone block of ZONE SET, 19 + n bytes; the surface count n on the wire is the list's length (R169). -/
structure ZoneBlock where
  air : Byte
  surfaces : List Byte
  watchBelow : Half
  warnBelow : Half
  wetBelow : Half
  hyst : Half
  worsenConfirm : Byte
  improveConfirm : Byte
  lead : Byte
  failLevel : Byte
  failLimit : Byte
  staleS : Half
  surfaceAgeS : Half
  deriving DecidableEq, Repr

/-- The output block of OUT SET, 13 bytes (R169). -/
structure OutBlock where
  source : Byte
  zoneMask : Byte
  trigger : Byte
  safety : Byte
  polarity : Byte
  drive : Byte
  mode : Byte
  minOnS : Half
  minOffS : Half
  blinkOn : Byte
  blinkOff : Byte
  deriving DecidableEq, Repr

/-- The commands, in the order of spec/opcode_table.json. -/
inductive Instr where
  /-- STATUS request (R180). -/
  | status (l : Link)
  /-- LINE GET request (R145). -/
  | lineGet (l : Link) (line : Byte)
  /-- LINE SET request (R142, R143). -/
  | lineSet (l : Link) (line : Byte) (b : LineBlock)
  /-- ZONE GET request (R21). -/
  | zoneGet (l : Link) (zone part : Byte)
  /-- ZONE SET request (R12 to R15). -/
  | zoneSet (l : Link) (zone : Byte) (b : ZoneBlock)
  /-- ZONE HOLD request (R67, R68). -/
  | zoneHold (l : Link) (zone mode level : Byte) (minutes : Half)
  /-- ZONE RELEASE request (R69). -/
  | zoneRelease (l : Link) (zone : Byte)
  /-- ZONE ACK request (R76). -/
  | zoneAck (l : Link) (zone : Byte) (seq : Half)
  /-- OUT GET request (R125). -/
  | outGet (l : Link) (out : Byte)
  /-- OUT SET request (R121, R122). -/
  | outSet (l : Link) (out : Byte) (b : OutBlock)
  /-- OUT CLAIM request (R111). -/
  | outClaim (l : Link) (out state : Byte) (minutes : Half)
  /-- OUT DROP request (R112). -/
  | outDrop (l : Link) (out : Byte)
  /-- EVENTS FETCH request (R91, R92). -/
  | eventsFetch (l : Link) (n : Byte)
  /-- EVENTS SEEK request (R93, R94). -/
  | eventsSeek (l : Link) (target : Byte) (seq : Half)
  /-- LINK SET request (R95). -/
  | linkSet (l : Link) (zoneMask : Byte) (kinds : Half) (minLevel : Byte) (gatherMs : Half)
  /-- LINK RANK request: three links, highest first (R116). -/
  | linkRank (l : Link) (first second third : Byte)
  /-- SAVE request (R173). -/
  | save (l : Link)
  /-- RESTART request (R178). -/
  | restart (l : Link)
  /-- A character arriving on a link (R160). -/
  | characterReceived (l : Link) (ch : Character)
  /-- Expiry of a link's gap timer (R161). -/
  | gapTimerExpiry (l : Link)
  /-- End of a response's transmission (R164). -/
  | responseEnd (l : Link)
  /-- A reference edge on a line at the present tick (R135). -/
  | referenceEdge (n : LineId)
  /-- A non-reference edge on a line at the present tick (R133). -/
  | nonReferenceEdge (n : LineId)
  /-- Expiry of a line's stall timer (R139). -/
  | stallTimerExpiry (n : LineId)
  /-- The zone table takes the oldest handed-over completion of a line (R42). -/
  | evaluationEvent (n : LineId)
  /-- Expiry of a zone's stale deadline (R57, R58). -/
  | staleDeadlineExpiry (z : ZoneId)
  /-- Expiry of a zone's hold (R70). -/
  | holdExpiry (z : ZoneId)
  /-- An output takes a zone's notice (R109). -/
  | zoneEventAtOutput (z : ZoneId) (o : OutId)
  /-- Expiry of a link's claim on an output (R113). -/
  | claimExpiry (o : OutId) (l : Link)
  /-- Expiry of an output's minimum hold (R119). -/
  | minHoldExpiry (o : OutId)
  /-- Expiry of an output's blink phase (R123). -/
  | blinkPhaseExpiry (o : OutId)
  /-- Expiry of a link's gather timer (R96). -/
  | gatherTimerExpiry (l : Link)
  /-- Expiry of the warm-up (R177). -/
  | warmupExpiry
  /-- Completion of a store write, with whether the read-back matched the snapshot (R173). -/
  | storeWriteCompletion (readBackMatches : Bool)
  /-- The full reset runs: whether power rose before it, and the levels of straps 1 and 0 (R176, R158). -/
  | fullReset (powerRose : Bool) (straps : BitVec 2)
  /-- A pending restart takes effect (R179). -/
  | restartEffect
  /-- The reset pin goes low, or power falls (R176). -/
  | resetPinHeldLow
  /-- One capture tick, with the level of each probe line; bit k is line k + 1, set for high (R133). -/
  | captureTick (levels : BitVec 16)
  deriving DecidableEq, Repr

end Sys2Proof
end

