-- ==== Sys2Proof/WellFormed.lean ====
section
/-!
DEFINITION. Which commands a frame or an event can carry at all. The types rule out everything else: only the surface
count of ZONE SET needs a check, since a request body holds at most 60 bytes (R163, R168).
-/

namespace Sys2Proof

/-- A ZONE SET body is 20 + n bytes and a body at most 60, so n is at most 40 (R163). -/
def ZoneBlock.fitsFrame (b : ZoneBlock) : Bool := b.surfaces.length ≤ 40

/-- The command can reach the part: a request's body fits a frame. -/
def Instr.wellFormed : Instr → Bool
  | .zoneSet _ _ b => b.fitsFrame
  | .status _ | .lineGet _ _ | .lineSet _ _ _ | .zoneGet _ _ _ | .zoneHold _ _ _ _ _ | .zoneRelease _ _
  | .zoneAck _ _ _ | .outGet _ _ | .outSet _ _ _ | .outClaim _ _ _ _ | .outDrop _ _ | .eventsFetch _ _
  | .eventsSeek _ _ _ | .linkSet _ _ _ _ _ | .linkRank _ _ _ _ | .save _ | .restart _
  | .characterReceived _ _ | .gapTimerExpiry _ | .responseEnd _ | .referenceEdge _ | .nonReferenceEdge _
  | .stallTimerExpiry _ | .evaluationEvent _ | .staleDeadlineExpiry _ | .holdExpiry _
  | .zoneEventAtOutput _ _ | .claimExpiry _ _ | .minHoldExpiry _ | .blinkPhaseExpiry _
  | .gatherTimerExpiry _ | .warmupExpiry | .storeWriteCompletion _ | .fullReset _ _ | .restartEffect
  | .resetPinHeldLow | .captureTick _ => true

end Sys2Proof
end

