-- ==== Sys2Proof/Decode.lean ====
section
/-!
DEFINITION. Request frames: the byte-order helpers, the decoder from a frame's kind and body to a request, and the
encoder from a request to its frame (R163, R168, R169). spec/opcode_table.json gives no row any bits, so no word spells
a command.
-/

namespace Sys2Proof

/-! ### Byte order: little-endian (R158) -/

/-- A two-byte value from its low and high byte. -/
def half (lo hi : Byte) : Half := hi ++ lo

/-- A four-byte value from its bytes, lowest first. -/
def word (b0 b1 b2 b3 : Byte) : Word := b3 ++ b2 ++ b1 ++ b0

/-- The bytes of a two-byte value, low byte first. -/
def halfBytes (x : Half) : List Byte := [x.extractLsb' 0 8, x.extractLsb' 8 8]

/-- The bytes of a four-byte value, lowest first. -/
def wordBytes (x : Word) : List Byte :=
  [x.extractLsb' 0 8, x.extractLsb' 8 8, x.extractLsb' 16 8, x.extractLsb' 24 8]

/-- One byte of a Nat, for fields whose range fits it. -/
def byteOf (n : Nat) : Byte := BitVec.ofNat 8 n

/-- A Nat as a two-byte field. -/
def halfOf (n : Nat) : List Byte := halfBytes (BitVec.ofNat 16 n)

/-- A signed value as a two-byte field, two's complement (R158). -/
def halfOfInt (x : Int) : List Byte := halfBytes (BitVec.ofInt 16 x)

/-- A signed value as a four-byte field, two's complement. -/
def wordOfInt (x : Int) : List Byte := wordBytes (BitVec.ofInt 32 x)

/-- The sum of bytes modulo 256 (R162). -/
def byteSum (bs : List Byte) : Byte := bs.foldl (· + ·) 0

/-! ### Requests -/

/-- The request kinds (R163). -/
inductive RequestKind where
  | status | lineGet | lineSet | zoneGet | zoneSet | zoneHold | zoneRelease | zoneAck | outGet | outSet
  | outClaim | outDrop | eventsFetch | eventsSeek | linkSet | linkRank | save | restart
  deriving DecidableEq, Repr

/-- Every kind, in the order of R163's table. -/
def RequestKind.list : List RequestKind :=
  [.status, .lineGet, .lineSet, .zoneGet, .zoneSet, .zoneHold, .zoneRelease, .zoneAck, .outGet, .outSet,
   .outClaim, .outDrop, .eventsFetch, .eventsSeek, .linkSet, .linkRank, .save, .restart]

/-- Kind codes (R163). -/
def RequestKind.code : RequestKind → Byte
  | .status => 0x01
  | .lineGet => 0x10
  | .lineSet => 0x11
  | .zoneGet => 0x20
  | .zoneSet => 0x21
  | .zoneHold => 0x22
  | .zoneRelease => 0x23
  | .zoneAck => 0x24
  | .outGet => 0x30
  | .outSet => 0x31
  | .outClaim => 0x32
  | .outDrop => 0x33
  | .eventsFetch => 0x40
  | .eventsSeek => 0x41
  | .linkSet => 0x42
  | .linkRank => 0x43
  | .save => 0x50
  | .restart => 0x51

/-- The kind a code names, if any (R163 step 1). -/
def RequestKind.ofCode (b : Byte) : Option RequestKind := RequestKind.list.find? (fun k => k.code = b)

/-- The 21 bytes of a line block (R169). -/
def decodeLineBlock : List Byte → Option LineBlock
  | [k, e, p, w, st, r0, r1, r2, r3, g0, g1, g2, g3, o0, o1, t0, t1, t2, t3, u0, u1] =>
    some
      { kind := k, edge := e, polarity := p, window := w, stallMs := st, rhRef := word r0 r1 r2 r3,
        rhGain := word g0 g1 g2 g3, rhOffset := half o0 o1, tGain := word t0 t1 t2 t3, tOffset := half u0 u1 }
  | _ => none

/-- The 17 bytes of a zone block after its surface lines (R169). -/
def decodeZoneTail (air : Byte) (surfaces : List Byte) : List Byte → Option ZoneBlock
  | [w0, w1, n0, n1, t0, t1, h0, h1, wc, ic, ld, fl, fm, s0, s1, a0, a1] =>
    some
      { air := air, surfaces := surfaces, watchBelow := half w0 w1, warnBelow := half n0 n1, wetBelow := half t0 t1,
        hyst := half h0 h1, worsenConfirm := wc, improveConfirm := ic, lead := ld, failLevel := fl, failLimit := fm,
        staleS := half s0 s1, surfaceAgeS := half a0 a1 }
  | _ => none

/-- The 19 + n bytes of a zone block, n its second byte (R163, R169). -/
def decodeZoneBlock : List Byte → Option ZoneBlock
  | air :: n :: rest => decodeZoneTail air (rest.take n.toNat) (rest.drop n.toNat)
  | _ => none

/-- The 13 bytes of an output block (R169). -/
def decodeOutBlock : List Byte → Option OutBlock
  | [src, mask, trig, saf, pol, drv, mode, n0, n1, f0, f1, bon, boff] =>
    some
      { source := src, zoneMask := mask, trigger := trig, safety := saf, polarity := pol, drive := drv, mode := mode,
        minOnS := half n0 n1, minOffS := half f0 f1, blinkOn := bon, blinkOff := boff }
  | _ => none

/-- A body of no bytes. -/
def decode0 {α : Type} (x : α) : List Byte → Option α
  | [] => some x
  | _ => none

/-- A body of one byte. -/
def decode1 {α : Type} (f : Byte → α) : List Byte → Option α
  | [x] => some (f x)
  | _ => none

/-- A body of two bytes. -/
def decode2 {α : Type} (f : Byte → Byte → α) : List Byte → Option α
  | [x, y] => some (f x y)
  | _ => none

/-- A body of three bytes. -/
def decode3 {α : Type} (f : Byte → Byte → Byte → α) : List Byte → Option α
  | [x, y, z] => some (f x y z)
  | _ => none

/-- A body of four bytes. -/
def decode4 {α : Type} (f : Byte → Byte → Byte → Byte → α) : List Byte → Option α
  | [x, y, z, w] => some (f x y z w)
  | _ => none

/-- A body of five bytes. -/
def decode5 {α : Type} (f : Byte → Byte → Byte → Byte → Byte → α) : List Byte → Option α
  | [x, y, z, w, v] => some (f x y z w v)
  | _ => none

/-- A body of six bytes. -/
def decode6 {α : Type} (f : Byte → Byte → Byte → Byte → Byte → Byte → α) : List Byte → Option α
  | [x, y, z, w, v, u] => some (f x y z w v u)
  | _ => none

/-- A body of a record number and a block. -/
def decodeWith {α β : Type} (block : List Byte → Option β) (f : Byte → β → α) : List Byte → Option α
  | n :: rest => (block rest).map (f n)
  | [] => none

/-- A body read under its kind; none where its length is not the kind's (R163 step 2, R169). -/
def decodeBody (l : Link) (k : RequestKind) (body : List Byte) : Option Instr :=
  match k with
  | .status => decode0 (.status l) body
  | .lineGet => decode1 (.lineGet l) body
  | .lineSet => decodeWith decodeLineBlock (.lineSet l) body
  | .zoneGet => decode2 (.zoneGet l) body
  | .zoneSet => decodeWith decodeZoneBlock (.zoneSet l) body
  | .zoneHold => decode5 (fun z m x n0 n1 => .zoneHold l z m x (half n0 n1)) body
  | .zoneRelease => decode1 (.zoneRelease l) body
  | .zoneAck => decode3 (fun z s0 s1 => .zoneAck l z (half s0 s1)) body
  | .outGet => decode1 (.outGet l) body
  | .outSet => decodeWith decodeOutBlock (.outSet l) body
  | .outClaim => decode4 (fun o x n0 n1 => .outClaim l o x (half n0 n1)) body
  | .outDrop => decode1 (.outDrop l) body
  | .eventsFetch => decode1 (.eventsFetch l) body
  | .eventsSeek => decode3 (fun t s0 s1 => .eventsSeek l t (half s0 s1)) body
  | .linkSet => decode6 (fun m k0 k1 x g0 g1 => .linkSet l m (half k0 k1) x (half g0 g1)) body
  | .linkRank => decode3 (.linkRank l) body
  | .save => decode0 (.save l) body
  | .restart => decode0 (.restart l) body

/-- What the first two checks of dispatch make of a valid frame (R163). -/
inductive Parsed where
  | unknownKind
  | badLength
  | request (k : RequestKind) (i : Instr)
  deriving DecidableEq, Repr

/-- A valid frame's kind and body read: unknown kinds first, then wrong lengths (R163 steps 1 and 2). -/
def decodeRequest (l : Link) (kind : Byte) (body : List Byte) : Parsed :=
  match RequestKind.ofCode kind with
  | none => .unknownKind
  | some k =>
    match decodeBody l k body with
    | none => .badLength
    | some i => .request k i

/-- A zone block as its bytes (R169). -/
def encodeZoneBlock (b : ZoneBlock) : List Byte :=
  [b.air, byteOf b.surfaces.length] ++ b.surfaces ++ halfBytes b.watchBelow ++ halfBytes b.warnBelow ++
    halfBytes b.wetBelow ++ halfBytes b.hyst ++
    [b.worsenConfirm, b.improveConfirm, b.lead, b.failLevel, b.failLimit] ++ halfBytes b.staleS ++
    halfBytes b.surfaceAgeS

/-- A line block as its bytes (R169). -/
def encodeLineBlock (b : LineBlock) : List Byte :=
  [b.kind, b.edge, b.polarity, b.window, b.stallMs] ++ wordBytes b.rhRef ++ wordBytes b.rhGain ++
    halfBytes b.rhOffset ++ wordBytes b.tGain ++ halfBytes b.tOffset

/-- An output block as its bytes (R169). -/
def encodeOutBlock (b : OutBlock) : List Byte :=
  [b.source, b.zoneMask, b.trigger, b.safety, b.polarity, b.drive, b.mode] ++ halfBytes b.minOnS ++
    halfBytes b.minOffS ++ [b.blinkOn, b.blinkOff]

/-- A request's link, kind and body; none for an event (R163, R169). -/
def Instr.request? : Instr → Option (Link × RequestKind × List Byte)
  | .status l => some (l, .status, [])
  | .lineGet l n => some (l, .lineGet, [n])
  | .lineSet l n b => some (l, .lineSet, n :: encodeLineBlock b)
  | .zoneGet l z p => some (l, .zoneGet, [z, p])
  | .zoneSet l z b => some (l, .zoneSet, z :: encodeZoneBlock b)
  | .zoneHold l z m x n => some (l, .zoneHold, [z, m, x] ++ halfBytes n)
  | .zoneRelease l z => some (l, .zoneRelease, [z])
  | .zoneAck l z n => some (l, .zoneAck, z :: halfBytes n)
  | .outGet l o => some (l, .outGet, [o])
  | .outSet l o b => some (l, .outSet, o :: encodeOutBlock b)
  | .outClaim l o x n => some (l, .outClaim, [o, x] ++ halfBytes n)
  | .outDrop l o => some (l, .outDrop, [o])
  | .eventsFetch l n => some (l, .eventsFetch, [n])
  | .eventsSeek l t n => some (l, .eventsSeek, t :: halfBytes n)
  | .linkSet l m k x g => some (l, .linkSet, m :: (halfBytes k ++ x :: halfBytes g))
  | .linkRank l x y z => some (l, .linkRank, [x, y, z])
  | .save l => some (l, .save, [])
  | .restart l => some (l, .restart, [])
  | .characterReceived _ _ | .gapTimerExpiry _ | .responseEnd _ | .referenceEdge _ | .nonReferenceEdge _
  | .stallTimerExpiry _ | .evaluationEvent _ | .staleDeadlineExpiry _ | .holdExpiry _
  | .zoneEventAtOutput _ _ | .claimExpiry _ _ | .minHoldExpiry _ | .blinkPhaseExpiry _
  | .gatherTimerExpiry _ | .warmupExpiry | .storeWriteCompletion _ | .fullReset _ _ | .restartEffect
  | .resetPinHeldLow | .captureTick _ => none

/-- The request frame: lead byte, length, kind, body and the check byte that makes the sum of length, kind, body and
check 0 modulo 256 (R162, R168). -/
def requestFrame (k : RequestKind) (body : List Byte) : List Byte :=
  let counted := byteOf (1 + body.length) :: k.code :: body
  0xC5 :: counted ++ [0 - byteSum counted]

/-- The parity of a byte: set for an odd count of ones. -/
def oddOnes (b : Byte) : Bool := (List.range 8).foldl (fun p i => p != b.getLsbD i) false

/-- A parity error, data and parity bits without an even count of ones, or a framing error, a stop bit sampled low
(R158). -/
def Character.isError (c : Character) : Bool := (oddOnes c.data != c.parity) || !c.stop

/-- The character that carries a byte without error (R158). -/
def characterOf (b : Byte) : Character := { data := b, parity := oddOnes b, stop := true }

/-- The command a word spells by the table's bits: the table gives none of its rows any bits, so no word spells one
(notes/assumptions/19.md). -/
def decodeTableWord (_nbits _w : Nat) : Option Instr := none

end Sys2Proof
end

