-- ==== Sys2Proof/Config.lean ====
section
/-!
DEFINITION. The enumerated values of the manual, the settings (what the store image holds, R172), and the one value the
manual leaves open for every implementation: the function that forms the image's check value.
-/

namespace Sys2Proof

/-- One value for each of the three links. -/
structure PerLink (α : Type) where
  a : α
  b : α
  c : α
  deriving DecidableEq, Repr

/-- The value held for a link. -/
def PerLink.get {α : Type} (p : PerLink α) : Link → α
  | .a => p.a
  | .b => p.b
  | .c => p.c

/-- The same values but for one link. -/
def PerLink.set {α : Type} (p : PerLink α) (l : Link) (v : α) : PerLink α :=
  match l with
  | .a => { p with a := v }
  | .b => { p with b := v }
  | .c => { p with c := v }

/-- Every value mapped. -/
def PerLink.map {α β : Type} (f : α → β) (p : PerLink α) : PerLink β := ⟨f p.a, f p.b, f p.c⟩

/-- The same value for every link. -/
def PerLink.all {α : Type} (v : α) : PerLink α := ⟨v, v, v⟩

/-- Every record of a numbered group mapped. -/
def mapEach {α β : Type} {n : Nat} (f : α → β) (v : Vector α n) : Vector β n := Vector.ofFn (fun i : Fin n => f v[i])

/-- Risk levels in order of worsening (Conventions, Levels). -/
inductive Level where
  | clear | watch | warn | wet
  deriving DecidableEq, Repr

/-- A level's place in the order of worsening; "at or above" is ≤ on it. -/
def Level.rank : Level → Nat
  | .clear => 0
  | .watch => 1
  | .warn => 2
  | .wet => 3

/-- What a line carries (R130). -/
inductive LineKind where
  | off | air | surface
  deriving DecidableEq, Repr

/-- The reference edge of a line (R130). -/
inductive Edge where
  | rising | falling
  deriving DecidableEq, Repr

/-- Which phase of a line's signal is active (R130). -/
inductive LinePolarity where
  | normal | inverted
  deriving DecidableEq, Repr

/-- Periods summed into one measurement (R130). -/
inductive WindowSize where
  | w16 | w64 | w256
  deriving DecidableEq, Repr

/-- The number of periods of a window. -/
def WindowSize.periods : WindowSize → Nat
  | .w16 => 16
  | .w64 => 64
  | .w256 => 256

/-- A line's configuration (R130) and calibration (R131). -/
structure LineConfig where
  kind : LineKind
  edge : Edge
  polarity : LinePolarity
  window : WindowSize
  stallMs : Nat
  rhRef : Int
  rhGain : Int
  rhOffset : Int
  tGain : Int
  tOffset : Int
  deriving DecidableEq, Repr

/-- A zone configuration, thirteen fields (R2 to R4). -/
structure ZoneConfig where
  air : Option LineId
  surfaces : List LineId
  watchBelow : Int
  warnBelow : Int
  wetBelow : Int
  hyst : Int
  worsenConfirm : Nat
  improveConfirm : Nat
  lead : Nat
  failLevel : Level
  failLimit : Nat
  staleS : Nat
  surfaceAgeS : Nat
  deriving DecidableEq, Repr

/-- Where an output's demand comes from (R106). -/
inductive OutSource where
  | off | demand | latch
  deriving DecidableEq, Repr

/-- The pin level that means active (R107). -/
inductive OutPolarity where
  | activeHigh | activeLow
  deriving DecidableEq, Repr

/-- How an output pin is driven (R107). -/
inductive OutDrive where
  | pushPull | openDrain
  deriving DecidableEq, Repr

/-- Steady or blinking (R107). -/
inductive OutMode where
  | steady | blink
  deriving DecidableEq, Repr

/-- An output's configuration, eleven fields (R106, R107). In `zoneMask` bit k−1 is zone Zk (R168). -/
structure OutConfig where
  source : OutSource
  zoneMask : Byte
  trigger : Level
  safety : Bool
  minOnS : Nat
  minOffS : Nat
  polarity : OutPolarity
  drive : OutDrive
  mode : OutMode
  blinkOn : Nat
  blinkOff : Nat
  deriving DecidableEq, Repr

/-- The link rank, highest first (R115). -/
structure Rank where
  first : Link
  second : Link
  third : Link
  deriving DecidableEq, Repr

/-- A link's filter (R88). In `kinds` bit k−1 is the entry kind of code k (R168). -/
structure Filter where
  zoneMask : Byte
  kinds : BitVec 11
  minLevel : Level
  deriving DecidableEq, Repr

/-- The settings a link's cursor record holds (R87, R88). -/
structure LinkSettings where
  filter : Filter
  gatherMs : Nat
  deriving DecidableEq, Repr

/-- Every setting: what one store image holds (R172). -/
structure Settings where
  lines : Vector LineConfig 16
  zones : Vector ZoneConfig 8
  outs : Vector OutConfig 4
  rank : Rank
  links : PerLink LinkSettings
  deriving DecidableEq, Repr

/-- R172 gives the image "a 16-bit check value formed over the whole copy" and not the function that forms it: left
uninterpreted, so that nothing can be proved of its values. DESIGN CHOICE (notes/assumptions/14.md). -/
opaque Config.checkValue : Settings → Half

end Sys2Proof
end

