-- ==== Sys2Proof/Machine/Records.lean ====
section
/-!
DEFINITION. The records of the nine blocks, as plain data (R1, R82, R87, R105, R129, R159, R172, R178).
-/

namespace Sys2Proof.Machine

/-! ### Capture unit -/

/-- R134. -/
inductive LineState where
  | off | warmup | acquiring | stalled
  deriving DecidableEq, Repr

/-- R132. -/
inductive Quality where
  | none | good | saturated | range
  deriving DecidableEq, Repr

/-- A window in flight: its accumulators and edge marks (R132). -/
structure Window where
  periods : Nat
  span : Nat
  active : Nat
  refTick : Nat
  runActive : Nat
  deriving DecidableEq, Repr

/-- Mean period P in ns and duty D in 0.01 % (R132, R150, R151). -/
structure RawReading where
  p : Int
  d : Int
  deriving DecidableEq, Repr

/-- Converted values: RH (0 for a SURFACE line, which has none) and temperature (R153, R154). -/
structure Reading where
  rh : Int
  temp : Int
  deriving DecidableEq, Repr

/-- The last good reading with its completion time in ms of uptime (R132). -/
structure LastGood where
  reading : Reading
  time : Nat
  deriving DecidableEq, Repr

/-- What conversion decides about a window: the quality, with the values for GOOD and SATURATED (R149). -/
inductive Converted where
  | good (r : Reading)
  | saturated (r : Reading)
  | range
  deriving DecidableEq, Repr

/-- A line record (R129 to R132). `pin` is the level of the probe input at the latest capture tick; while it differs
from `sampled` an edge of that tick has not been taken yet. -/
structure LineRecord where
  config : LineConfig
  state : LineState
  window : Option Window
  sampled : Option Bool
  pin : Bool
  stallAt : Option Nat
  lastQuality : Quality
  fault : Bool
  lastRaw : Option RawReading
  lastGood : Option LastGood
  deriving DecidableEq, Repr

/-- A completion of an AIR line on its way to the zone table (R138). -/
structure Completion where
  line : LineId
  result : Converted
  time : Nat
  deriving DecidableEq, Repr

/-! ### Zone table -/

/-- R6. -/
inductive ZoneStatus where
  | disabled | starting | active | unknown
  deriving DecidableEq, Repr

/-- R8. -/
inductive UnknownReason where
  | stale | airBad | noSurface
  deriving DecidableEq, Repr

/-- A pending configuration with the link that wrote it (R1, R15). -/
structure PendingConfig where
  config : ZoneConfig
  writer : Link
  deriving DecidableEq, Repr

/-- A change of level not yet confirmed (R7). -/
structure PendingLevel where
  level : Level
  count : Nat
  deriving DecidableEq, Repr

/-- The results of the most recent successful evaluation (R10). -/
structure LastEval where
  time : Word
  airT : Int
  rh : Int
  e : Int
  td : Int
  dpFloor : Bool
  saturatedInput : Bool
  agedSurface : Bool
  m : Int
  p : Option Int
  g : Int
  coldest : LineId
  deriving DecidableEq, Repr

/-- A hold's mode, with the level of an ASSERT hold (R66). -/
inductive HoldMode where
  | suppress
  | assert (level : Level)
  deriving DecidableEq, Repr

/-- A hold (R66). -/
structure Hold where
  mode : HoldMode
  link : Link
  expiry : Word
  deriving DecidableEq, Repr

/-- A zone record (R1, R6 to R11). `epoch` counts 0..255 and wraps. -/
structure ZoneRecord where
  active : ZoneConfig
  pendingConfig : Option PendingConfig
  status : ZoneStatus
  level : Level
  pending : Option PendingLevel
  failCount : Nat
  unknownReason : Option UnknownReason
  deadline : Option Word
  history : List Int
  lastEval : Option LastEval
  epoch : Byte
  hold : Option Hold
  latch : Option Nat
  deriving DecidableEq, Repr

/-! ### Event queue -/

/-- The causes of a reset (R83). -/
inductive Cause where
  | powerOn
  | resetPin
  | restart (l : Link)
  deriving DecidableEq, Repr

/-- Where the settings of the last full reset came from (R83, R175). -/
inductive ConfigSource where
  | defaults | stored
  deriving DecidableEq, Repr

/-- From and to of a LEVEL entry: a level, UNKNOWN or STARTING (R62). -/
inductive Condition where
  | level (x : Level)
  | unknown
  | starting
  deriving DecidableEq, Repr

/-- R83, PROBE_FAULT. -/
inductive ProbeFault where
  | stalled | range
  deriving DecidableEq, Repr

/-- Subject class and subject of a CONFIG entry (R83); the zone class carries the new epoch. -/
inductive ConfigSubject where
  | zone (z : ZoneId) (epoch : Byte)
  | line (n : LineId)
  | output (o : OutId)
  | link (l : Link)
  | rank
  deriving DecidableEq, Repr

/-- R78. -/
inductive HoldEndCause where
  | released | expired
  deriving DecidableEq, Repr

/-- R124; CLAIM carries the winner's link. -/
inductive OutCause where
  | auto
  | claim (l : Link)
  | safety
  | minHoldEnd
  | expiry
  deriving DecidableEq, Repr

/-- R124. -/
inductive ClaimEndCause where
  | dropped | expired | replaced
  deriving DecidableEq, Repr

/-- R83, R173. -/
inductive StoreResult where
  | saved | failed
  deriving DecidableEq, Repr

/-- The contents of an entry, by kind (R83); its subject and operands are read from it (R170). -/
inductive Content where
  | start (cause : Cause) (source : ConfigSource)
  | level (z : ZoneId) (old new : Condition) (held projected dpFloor : Bool) (reason : Option UnknownReason)
      (g td : Int)
  | probeFault (n : LineId) (f : ProbeFault)
  | probeOk (n : LineId)
  | config (subject : ConfigSubject) (writer : Link)
  | hold (z : ZoneId) (l : Link) (mode : HoldMode) (minutes : Nat)
  | holdEnd (z : ZoneId) (cause : HoldEndCause) (l : Link)
  | ack (z : ZoneId) (l : Link) (seq : Nat)
  | output (o : OutId) (old new : Bool) (cause : OutCause)
  | claimEnd (o : OutId) (l : Link) (cause : ClaimEndCause)
  | store (result : StoreResult)
  deriving DecidableEq, Repr

/-- An entry of the ring (R82). -/
structure Entry where
  seq : Nat
  time : Word
  content : Content
  deriving DecidableEq, Repr

/-- A link's cursor record (R87, R88). `gatherAt` is the gather timer's expiry while it runs. -/
structure CursorRecord where
  cursor : Nat
  backlog : Nat
  missed : Nat
  lagging : Bool
  settings : LinkSettings
  gatherAt : Option Nat
  attention : Bool
  deriving DecidableEq, Repr

/-- The event queue: the ring, oldest first, the seq last given, and the cursor records (R81, R87). -/
structure Queue where
  ring : List Entry
  newest : Nat
  cursors : PerLink CursorRecord
  deriving DecidableEq, Repr

/-! ### Output unit -/

/-- A claim: ON when `on`, and its expiry second (R110). -/
structure Claim where
  on : Bool
  expiry : Word
  deriving DecidableEq, Repr

/-- R118. -/
inductive OutState where
  | offFree | offHeld | onHeld | onFree
  deriving DecidableEq, Repr

/-- Blink phase, on phase when `onPhase`, and its expiry in ms of uptime (R123). -/
structure Blink where
  onPhase : Bool
  expiry : Nat
  deriving DecidableEq, Repr

/-- The level on an output pin (R123, R126). -/
inductive PinLevel where
  | high | low | undriven
  deriving DecidableEq, Repr

/-- An output record (R105). `told` holds the zones whose notice the output has not taken yet (R109). -/
structure OutRecord where
  config : OutConfig
  claims : PerLink (Option Claim)
  demand : Bool
  winner : Option Link
  wanted : Bool
  overridden : Bool
  outState : OutState
  holdStart : Option Word
  blink : Option Blink
  pin : PinLevel
  told : List ZoneId
  deriving DecidableEq, Repr

/-! ### Link interface -/

/-- R159. -/
inductive RxState where
  | hunt | length | body | drain | serving | sending
  deriving DecidableEq, Repr

/-- A link record (R159). `buffer` is empty where R159 has it absent; `serving` is the request that is with its owning
block; `response` is the frame in transmission. -/
structure LinkRecord where
  rx : RxState
  buffer : List Byte
  gapAt : Option Nat
  overrun : Bool
  discarded : Nat
  serving : Option Instr
  response : Option (List Byte)
  driverEnable : Bool
  deriving DecidableEq, Repr

/-! ### Settings store and start-up control -/

/-- The nonvolatile image (R172). -/
structure Image where
  valid : Bool
  content : Settings
  check : Half
  deriving DecidableEq, Repr

/-- R172; WRITING holds the snapshot being written. -/
inductive StoreState where
  | idle
  | writing (snapshot : Settings)
  deriving DecidableEq, Repr

/-- The settings store (R172). -/
structure Store where
  image : Image
  state : StoreState
  lastResult : Option StoreResult
  deriving DecidableEq, Repr

/-- A pending restart (R178). -/
structure RestartPending where
  link : Link
  responseEnded : Bool
  deriving DecidableEq, Repr

/-- Start-up control (R175 to R180). `warmupAt` is the warm-up's expiry while it runs; a bit of `causes` is the bit of
the restart cause set in STATUS (R169); `rate` is straps 1 and 0 as last read (R158); `resetHeld` says that power is not
good or the reset pin is low. -/
structure Startup where
  warmupAt : Option Nat
  probeSupply : Bool
  restart : Option RestartPending
  causes : PerLink (BitVec 5)
  source : ConfigSource
  rate : BitVec 2
  resetHeld : Bool
  deriving DecidableEq, Repr

end Sys2Proof.Machine
end

