-- ==== Sys2Proof/Machine/Defaults.lean ====
section
/-!
DEFINITION. The default settings, and each record as a full reset leaves it before anything is posted
(R23, R126, R147, R159).
-/

namespace Sys2Proof.Machine

/-- R130, R131. -/
def lineDefault : LineConfig :=
  { kind := .off, edge := .rising, polarity := .normal, window := .w64, stallMs := 20, rhRef := 100000,
    rhGain := 1966, rhOffset := 0, tGain := 20000, tOffset := -5000 }

/-- R2 to R4. -/
def zoneDefault : ZoneConfig :=
  { air := none, surfaces := [], watchBelow := 300, warnBelow := 100, wetBelow := 0, hyst := 50,
    worsenConfirm := 2, improveConfirm := 4, lead := 4, failLevel := .warn, failLimit := 3, staleS := 30,
    surfaceAgeS := 60 }

/-- R106, R107. -/
def outDefault : OutConfig :=
  { source := .off, zoneMask := 0, trigger := .warn, safety := false, minOnS := 0, minOffS := 0,
    polarity := .activeHigh, drive := .pushPull, mode := .steady, blinkOn := 5, blinkOff := 5 }

/-- R115. -/
def rankDefault : Rank := ⟨.a, .b, .c⟩

/-- R87, R88: all zones, all eleven kinds, CLEAR, 200 ms. -/
def linkDefault : LinkSettings :=
  { filter := { zoneMask := 0xFF, kinds := 0x7FF, minLevel := .clear }, gatherMs := 200 }

/-- Every block's defaults (R175). -/
def settingsDefault : Settings :=
  { lines := Vector.replicate 16 lineDefault, zones := Vector.replicate 8 zoneDefault,
    outs := Vector.replicate 4 outDefault, rank := rankDefault, links := .all linkDefault }

/-- A configuration is enabled when it names an air line and at least one surface line (R5). -/
def zoneEnabled (c : ZoneConfig) : Bool := c.air.isSome && !c.surfaces.isEmpty

/-- A line record after full reset, on an input pin at level `pin` (R132, R147). -/
def LineRecord.fresh (pin : Bool) (c : LineConfig) : LineRecord :=
  { config := c, state := if c.kind = .off then .off else .warmup, window := none, sampled := none, pin := pin,
    stallAt := none, lastQuality := .none, fault := false, lastRaw := none, lastGood := none }

/-- A zone record after full reset (R23). -/
def ZoneRecord.fresh (c : ZoneConfig) : ZoneRecord :=
  { active := c, pendingConfig := none, status := if zoneEnabled c then .starting else .disabled, level := .clear,
    pending := none, failCount := 0, unknownReason := none, deadline := none, history := [], lastEval := none,
    epoch := 0, hold := none, latch := none }

/-- The pin's level, active or inactive (the table of R123). -/
def pinLevel (c : OutConfig) (active : Bool) : PinLevel :=
  match c.polarity, c.drive, active with
  | .activeHigh, .pushPull, true => .high
  | .activeHigh, .pushPull, false => .low
  | .activeHigh, .openDrain, true => .undriven
  | .activeHigh, .openDrain, false => .low
  | .activeLow, .pushPull, true => .low
  | .activeLow, .pushPull, false => .high
  | .activeLow, .openDrain, true => .low
  | .activeLow, .openDrain, false => .undriven

/-- An output record at the end of the load of full reset, its pin inactive (R126). -/
def OutRecord.fresh (c : OutConfig) : OutRecord :=
  { config := c, claims := .all none, demand := false, winner := none, wanted := false, overridden := false,
    outState := .offFree, holdStart := none, blink := none, pin := pinLevel c false, told := [] }

/-- A link record after full reset (R159). -/
def LinkRecord.fresh : LinkRecord :=
  { rx := .hunt, buffer := [], gapAt := none, overrun := false, discarded := 0, serving := none, response := none,
    driverEnable := false }

/-- A cursor record on the seq the next posting takes, before that posting (R102, R103). -/
def CursorRecord.fresh (settings : LinkSettings) (cursor : Nat) : CursorRecord :=
  { cursor := cursor, backlog := 0, missed := 0, lagging := false, settings := settings, gatherAt := none,
    attention := false }

/-- One ms is 8000 capture ticks of 125 ns (Conventions). -/
def ticksPerMs : Nat := 8000

/-- The warm-up lasts 4 s (R176). -/
def warmupTicks : Nat := 4000 * ticksPerMs

/-- A part whose store has never completed a write (R172): the image is invalid. Its content and check value are never
read while it is. DESIGN CHOICE (notes/assumptions/15.md). -/
def blankImage : Image := { valid := false, content := settingsDefault, check := 0 }

end Sys2Proof.Machine
end

