-- ==== Sys2Proof/Machine/State.lean ====
section
/-!
DEFINITION. The state of the part, the reasons a step could stop, and the state after reset.
-/

namespace Sys2Proof.Machine

/-- Everything the part holds, and the queue of commands that wait. -/
structure State where
  /-- Capture ticks since full reset; uptime is read from it. -/
  tick : Nat
  /-- Line records 1..16 (R129). -/
  lines : Vector LineRecord 16
  /-- AIR completions handed over and not yet taken by the zone table, oldest first (R138). -/
  handed : List Completion
  /-- Zone records Z1..Z8 (R1). -/
  zones : Vector ZoneRecord 8
  /-- The event queue (R81, R87). -/
  queue : Queue
  /-- Output records O1..O4 (R105). -/
  outs : Vector OutRecord 4
  /-- The link rank (R115). -/
  rank : Rank
  /-- Link records (R159). -/
  links : PerLink LinkRecord
  /-- The settings store (R172). -/
  store : Store
  /-- Start-up control (R175 to R180). -/
  startup : Startup
  /-- The commands that wait, first in, first out (the model's own field). -/
  pending : List Instr
  deriving DecidableEq, Repr

/-- The spec names nothing that stops the part: a malformed frame is discarded, a wrong request is answered with a
status code, and every event has its effect in every state (R134, R160, R165). So no command raises a fault, and there
is no reason to name. Safe: nothing is stopped that the part would run. -/
inductive Fault where
  deriving DecidableEq, Repr

/-- Why a command has no meaning. -/
inductive Refusal where
  /-- Raised by `exec` for a command that has no meaning yet; no arm raises it. Safe: the step does not happen. -/
  | notModelled (mnemonic : String)
  deriving DecidableEq, Repr

/-- The part right after a full reset at power-on that found no valid image: defaults, START posted as seq 1 and
asserting every attention line, probe supply on, warm-up running (R175, R176, R102). -/
def State.reset : State :=
  { tick := 0
    lines := Vector.replicate 16 (LineRecord.fresh false lineDefault)
    handed := []
    zones := Vector.replicate 8 (ZoneRecord.fresh zoneDefault)
    queue :=
      { ring := [{ seq := 1, time := 0, content := .start .powerOn .defaults }]
        newest := 1
        cursors := .all { CursorRecord.fresh linkDefault 1 with backlog := 1, attention := true } }
    outs := Vector.replicate 4 (OutRecord.fresh outDefault)
    rank := rankDefault
    links := .all LinkRecord.fresh
    store := { image := blankImage, state := .idle, lastResult := none }
    startup :=
      { warmupAt := some warmupTicks, probeSupply := true, restart := none, causes := .all 1, source := .defaults,
        rate := 0, resetHeld := false }
    pending := [] }

end Sys2Proof.Machine
end

