-- ==== Sys2Proof/Machine/Ops.lean ====
section
/-!
DEFINITION. The operations every block shares: the clock and the test that a moment is reached, the records of the
state, posting to the event queue with its overflow and attention (R85, R86, R96 to R99), and a zone's notice to the
outputs (R65).
-/

namespace Sys2Proof.Machine

/-! ### Time -/

/-- Uptime in seconds, wrapping (Conventions, Units). -/
def uptimeOf (tick : Nat) : Word := BitVec.ofNat 32 (tick / (1000 * ticksPerMs))

/-- Uptime in ms wraps to 0 with the uptime in seconds (Conventions, Units; R46). -/
def msWrap : Nat := 4294967296000

/-- Uptime in ms (Conventions, Units). -/
def uptimeMsOf (tick : Nat) : Nat := tick / ticksPerMs % msWrap

/-- The uptime second of the state. -/
def State.now (s : State) : Word := uptimeOf s.tick

/-- The uptime in ms of the state. -/
def State.nowMs (s : State) : Nat := uptimeMsOf s.tick

/-- The uptime second `t` has been reached at `now`: it lies at most half the wrap behind (R9, R66, R110, R119). -/
def reached (now t : Word) : Bool := (now - t).toNat < 2147483648

/-- The second `n` s after `now`, wrapping with uptime (R56, R66). -/
def secondsAfter (now : Word) (n : Nat) : Word := now + BitVec.ofNat 32 n

/-- Ms from `t` to `now` across the wrap (R46). -/
def msSince (now t : Nat) : Nat := if t ≤ now then now - t else now + msWrap - t

/-- The ms of uptime `t` has been reached at `now` (R123). -/
def reachedMs (now t : Nat) : Bool := msSince now t < msWrap / 2

/-- The ms of uptime `n` ms after `now`. -/
def msAfter (now n : Nat) : Nat := (now + n) % msWrap

/-- The tick a timer of `ms` started at `tick` expires at. -/
def ticksAfter (tick ms : Nat) : Nat := tick + ms * ticksPerMs

/-- A timer kept in ticks is running and its expiry is reached. -/
def timerDue (tick : Nat) (t : Option Nat) : Bool :=
  match t with
  | some x => x ≤ tick
  | none => false

/-- A moment kept in uptime seconds is present and reached. -/
def secondDue (now : Word) (t : Option Word) : Bool :=
  match t with
  | some x => reached now x
  | none => false

/-! ### Records -/

/-- The record of line `n`. -/
def State.line (s : State) (n : LineId) : LineRecord := s.lines[n]

/-- Line `n`'s record written. -/
def State.setLine (s : State) (n : LineId) (r : LineRecord) : State := { s with lines := s.lines.set n r }

/-- The record of zone `z`. -/
def State.zone (s : State) (z : ZoneId) : ZoneRecord := s.zones[z]

/-- Zone `z`'s record written. -/
def State.setZone (s : State) (z : ZoneId) (r : ZoneRecord) : State := { s with zones := s.zones.set z r }

/-- The record of output `o`. -/
def State.out (s : State) (o : OutId) : OutRecord := s.outs[o]

/-- Output `o`'s record written. -/
def State.setOut (s : State) (o : OutId) (r : OutRecord) : State := { s with outs := s.outs.set o r }

/-- The record of link `l`. -/
def State.link (s : State) (l : Link) : LinkRecord := s.links.get l

/-- Link `l`'s record written. -/
def State.setLink (s : State) (l : Link) (r : LinkRecord) : State := { s with links := s.links.set l r }

/-- The cursor record of link `l`. -/
def State.cursor (s : State) (l : Link) : CursorRecord := s.queue.cursors.get l

/-- Link `l`'s cursor record written. -/
def State.setCursor (s : State) (l : Link) (r : CursorRecord) : State :=
  { s with queue := { s.queue with cursors := s.queue.cursors.set l r } }

/-- Zone Zk is bit k−1 of a zone mask (R168). -/
def maskHas (mask : Byte) (z : ZoneId) : Bool := mask.getLsbD z.val

/-- The warm-up of the last full reset is running (R176). -/
def State.warm (s : State) : Bool := s.startup.warmupAt.isSome

/-! ### Entries -/

/-- Entry kinds by their codes, 1 to 11 (R82, R168). -/
def Content.kindCode : Content → Nat
  | .start _ _ => 1
  | .level _ _ _ _ _ _ _ _ _ => 2
  | .probeFault _ _ => 3
  | .probeOk _ => 4
  | .config _ _ => 5
  | .hold _ _ _ _ => 6
  | .holdEnd _ _ _ => 7
  | .ack _ _ _ => 8
  | .output _ _ _ _ => 9
  | .claimEnd _ _ _ => 10
  | .store _ => 11

/-- START entries, and LEVEL entries to WET or UNKNOWN, are urgent (R84). -/
def Content.urgent : Content → Bool
  | .start _ _ => true
  | .level _ _ new _ _ _ _ _ _ => new = .level .wet || new = .unknown
  | _ => false

/-- The zone of a zone entry: LEVEL, HOLD, HOLD_END, ACK, and CONFIG of class ZONE (R89). -/
def Content.zone? : Content → Option ZoneId
  | .level z _ _ _ _ _ _ _ _ => some z
  | .hold z _ _ _ => some z
  | .holdEnd z _ _ => some z
  | .ack z _ _ => some z
  | .config (.zone z _) _ => some z
  | _ => none

/-- One end of a LEVEL entry passes the level test: UNKNOWN, or at or above the minimum; STARTING does not (R89). -/
def Condition.passes (least : Level) : Condition → Bool
  | .level x => least.rank ≤ x.rank
  | .unknown => true
  | .starting => false

/-- The level test of R89; entries of other kinds pass it. -/
def Content.passesLevel (least : Level) : Content → Bool
  | .level _ old new _ _ _ _ _ _ => old.passes least || new.passes least
  | _ => true

/-- An entry matches a filter (R89). -/
def matchesFilter (f : Filter) (c : Content) : Bool :=
  match c with
  | .start _ _ => true
  | c =>
    f.kinds.getLsbD (c.kindCode - 1) &&
      (match c.zone? with
        | some z => maskHas f.zoneMask z
        | none => true) &&
      c.passesLevel f.minLevel

/-! ### The ring and its cursors -/

/-- Sequence numbers run 1 to 65535 and then 1 again (R81). -/
def nextSeq (n : Nat) : Nat := if n = 65535 then 1 else n + 1

/-- The ring holds at most 64 entries (R81). -/
def ringSize : Nat := 64

/-- The held entries from the one the cursor names to the newest; none for a cursor one past the newest (R87). -/
def fromCursor (ring : List Entry) (cursor : Nat) : List Entry := ring.dropWhile (fun e => e.seq != cursor)

/-- Matching entries from the cursor to the newest (R90). -/
def countMatching (ring : List Entry) (f : Filter) (cursor : Nat) : Nat :=
  (fromCursor ring cursor).countP (fun e => matchesFilter f e.content)

/-- An urgent entry that matches lies between the cursor and the newest (R97). -/
def urgentAhead (ring : List Entry) (r : CursorRecord) : Bool :=
  (fromCursor ring r.cursor).any (fun e => e.content.urgent && matchesFilter r.settings.filter e.content)

/-- `backlog` written and `lagging` updated from it: set at 48 or more, clear below 32, kept between (R99). -/
def CursorRecord.setBacklog (r : CursorRecord) (n : Nat) : CursorRecord :=
  { r with backlog := n, lagging := if 48 ≤ n then true else if n < 32 then false else r.lagging }

/-- Attention and gather timer after an event at the cursor record (R96 to R98): a backlog of 0 releases the line and
stops the timer; a condition of R97 asserts it and stops the timer; an asserted line stays; a released line with a
backlog starts the timer unless it runs, and a gather delay of 0 expires as it starts. -/
def CursorRecord.refresh (tick : Nat) (ring : List Entry) (r : CursorRecord) : CursorRecord :=
  if r.backlog = 0 then { r with attention := false, gatherAt := none }
  else if r.attention || 16 ≤ r.backlog || r.lagging || urgentAhead ring r then
    { r with attention := true, gatherAt := none }
  else
    match r.gatherAt with
    | some _ => r
    | none =>
      if r.settings.gatherMs = 0 then { r with attention := true }
      else { r with gatherAt := some (ticksAfter tick r.settings.gatherMs) }

/-- The backlog counted afresh from the cursor, `lagging` with it (R93 to R95). -/
def CursorRecord.recount (ring : List Entry) (r : CursorRecord) : CursorRecord :=
  r.setBacklog (countMatching ring r.settings.filter r.cursor)

/-- What a discard does to a cursor record: a cursor on the discarded entry moves to the entry after it, and a match
leaves the backlog for `missed`, which holds at 255 (R86). -/
def CursorRecord.discard (e : Entry) (r : CursorRecord) : CursorRecord :=
  if r.cursor = e.seq then
    let r' := { r with cursor := nextSeq e.seq }
    if matchesFilter r.settings.filter e.content then
      { r'.setBacklog (r.backlog - 1) with missed := min 255 (r.missed + 1) }
    else r'
  else r

/-- A posted entry counted: a match adds 1 to the backlog (R85). -/
def CursorRecord.count (e : Entry) (r : CursorRecord) : CursorRecord :=
  if matchesFilter r.settings.filter e.content then r.setBacklog (r.backlog + 1) else r

/-- The oldest entry leaves the ring (R86). -/
def Queue.discardOldest (q : Queue) : Queue :=
  match q.ring with
  | [] => q
  | e :: rest => { q with ring := rest, cursors := q.cursors.map (CursorRecord.discard e) }

/-- A ring of 64 entries loses its oldest before a posting (R85, R86). -/
def Queue.makeRoom (q : Queue) : Queue := if q.ring.length < ringSize then q else q.discardOldest

/-- A posting: room made, the next seq and the uptime second given, the entry appended, and each link's record brought
up to date (R85). -/
def Queue.post (tick : Nat) (c : Content) (q : Queue) : Queue :=
  let q' := q.makeRoom
  let e : Entry := { seq := nextSeq q.newest, time := uptimeOf tick, content := c }
  let ring := q'.ring ++ [e]
  { ring := ring, newest := e.seq,
    cursors := q'.cursors.map (fun r => (r.count e).refresh tick ring) }

/-- The ring emptied and every cursor set on the seq the next posting takes (R102, R103). -/
def Queue.emptied (q : Queue) : Queue :=
  { q with ring := [], cursors := q.cursors.map (fun r => CursorRecord.fresh r.settings (nextSeq q.newest)) }

/-- A block posts an entry. -/
def State.post (c : Content) (s : State) : State := { s with queue := s.queue.post s.tick c }

/-- A block posts an entry, or none. -/
def State.postOpt (c : Option Content) (s : State) : State :=
  match c with
  | some c => s.post c
  | none => s

/-! ### The zone's notice to the outputs -/

/-- Every output is given zone `z`'s notice; each takes it as an event of its own (R65, R109). -/
def State.tell (z : ZoneId) (s : State) : State :=
  { s with outs := mapEach (fun r => { r with told := r.told ++ [z] }) s.outs }

/-- While power is not good or the reset pin is low nothing happens but the full reset (R176). DEDUCED
(notes/assumptions/10.md). -/
def State.unlessHeld (s : State) (f : State → State) : State := if s.startup.resetHeld then s else f s

end Sys2Proof.Machine
end

