-- ==== Sys2Proof/Machine/Operands.lean ====
section
/-!
DEFINITION. The operands of requests: the enumerated codes of R168 read, the ranges of the settings (R2 to R4, R87,
R88, R106, R107, R130, R131), and the checks of numbers, values and roles that requests and the load of full reset
share (R12, R13, R67, R121, R142, R175).
-/

namespace Sys2Proof.Machine

/-- The status codes of a response (R165). -/
inductive StatusCode where
  | done | accepted | outranked | stale | nothing | badArg | noSuch | conflict | busy | restarting | badLength
  | unknownKind
  deriving DecidableEq, Repr

/-! ### Numbers and codes -/

/-- A number 1..n as an index; none outside that range (Conventions, Numbering). -/
def indexOf (n : Nat) (b : Byte) : Option (Fin n) :=
  if h : 1 ≤ b.toNat ∧ b.toNat ≤ n then some ⟨b.toNat - 1, by omega⟩ else none

/-- A zone number 1..8. -/
def zoneOf (b : Byte) : Option ZoneId := indexOf 8 b

/-- A line number 1..16. -/
def lineOf (b : Byte) : Option LineId := indexOf 16 b

/-- An output number 1..4. -/
def outOf (b : Byte) : Option OutId := indexOf 4 b

/-- Link codes (R168). -/
def linkOf (b : Byte) : Option Link :=
  if b = 1 then some .a else if b = 2 then some .b else if b = 3 then some .c else none

/-- Level codes 0 to 3 (R168). -/
def levelOf (b : Byte) : Option Level :=
  if b = 0 then some .clear else if b = 1 then some .watch else if b = 2 then some .warn
  else if b = 3 then some .wet else none

/-- WATCH, WARN or WET (R4, R67, R106). -/
def alarmLevelOf (b : Byte) : Option Level := if b = 0 then none else levelOf b

/-- The first three of a byte's values, in code order (R168). -/
def threeOf {α : Type} (x y z : α) (b : Byte) : Option α :=
  if b = 0 then some x else if b = 1 then some y else if b = 2 then some z else none

/-- The first two of a byte's values, in code order (R168). -/
def twoOf {α : Type} (x y : α) (b : Byte) : Option α :=
  if b = 0 then some x else if b = 1 then some y else none

/-- lo ≤ x ≤ hi. -/
def within (lo hi x : Int) : Bool := lo ≤ x && x ≤ hi

/-- lo ≤ n ≤ hi. -/
def withinNat (lo hi n : Nat) : Bool := lo ≤ n && n ≤ hi

/-! ### Ranges of the settings -/

/-- The ranges of R130 and R131. -/
def lineInRange (c : LineConfig) : Bool :=
  withinNat 5 250 c.stallMs && within 25000 1000000 c.rhRef && within (-65535) 65535 c.rhGain &&
    within (-1000) 1000 c.rhOffset && within (-65535) 65535 c.tGain && within (-10000) 10000 c.tOffset

/-- The values of R12 step 2: at most three surfaces, none twice and none the air line, every field in its range, and
the thresholds in order. -/
def zoneInRange (c : ZoneConfig) : Bool :=
  c.surfaces.length ≤ 3 && c.surfaces.Nodup && c.surfaces.all (fun n => c.air != some n) &&
    within (-500) 2000 c.watchBelow && within (-500) 2000 c.warnBelow && within (-500) 2000 c.wetBelow &&
    within 0 500 c.hyst && c.watchBelow > c.warnBelow && c.warnBelow > c.wetBelow &&
    withinNat 1 8 c.worsenConfirm && withinNat 1 15 c.improveConfirm && withinNat 0 15 c.lead &&
    c.failLevel != .clear && withinNat 1 7 c.failLimit && withinNat 5 600 c.staleS && withinNat 1 600 c.surfaceAgeS

/-- The ranges of R106 and R107. -/
def outInRange (c : OutConfig) : Bool :=
  c.trigger != .clear && withinNat 0 600 c.minOnS && withinNat 0 600 c.minOffS && withinNat 1 50 c.blinkOn &&
    withinNat 1 50 c.blinkOff

/-- A rank names each link once (R115). -/
def rankComplete (r : Rank) : Bool := r.first != r.second && r.first != r.third && r.second != r.third

/-- The range of a gather delay (R87). -/
def linkInRange (c : LinkSettings) : Bool := withinNat 0 2000 c.gatherMs

/-! ### Blocks of fields read -/

/-- The line block of LINE SET; none where a field is outside its values or range (R142 step 2). -/
def lineConfigOf (b : LineBlock) : Option LineConfig := do
  let kind ← threeOf LineKind.off .air .surface b.kind
  let edge ← twoOf Edge.rising .falling b.edge
  let polarity ← twoOf LinePolarity.normal .inverted b.polarity
  let window ← threeOf WindowSize.w16 .w64 .w256 b.window
  let c : LineConfig :=
    { kind := kind, edge := edge, polarity := polarity, window := window, stallMs := b.stallMs.toNat,
      rhRef := b.rhRef.toNat, rhGain := b.rhGain.toInt, rhOffset := b.rhOffset.toInt, tGain := b.tGain.toInt,
      tOffset := b.tOffset.toInt }
  if lineInRange c then some c else none

/-- The line numbers of a zone block name lines: `air` 0..16, each surface 1..16 (R12 step 1, R169). -/
def zoneLinesExist (b : ZoneBlock) : Bool :=
  b.air.toNat ≤ 16 && b.surfaces.all (fun n => (lineOf n).isSome)

/-- The zone block of ZONE SET; none where a value is outside its range (R12 step 2). -/
def zoneConfigOf (b : ZoneBlock) : Option ZoneConfig := do
  let failLevel ← alarmLevelOf b.failLevel
  let c : ZoneConfig :=
    { air := lineOf b.air, surfaces := b.surfaces.filterMap lineOf, watchBelow := b.watchBelow.toInt,
      warnBelow := b.warnBelow.toInt, wetBelow := b.wetBelow.toInt, hyst := b.hyst.toInt,
      worsenConfirm := b.worsenConfirm.toNat, improveConfirm := b.improveConfirm.toNat, lead := b.lead.toNat,
      failLevel := failLevel, failLimit := b.failLimit.toNat, staleS := b.staleS.toNat,
      surfaceAgeS := b.surfaceAgeS.toNat }
  if zoneInRange c then some c else none

/-- The output block of OUT SET; none where a field is outside its values or range (R121 step 2). A `safety` byte of any
non-zero value is set (R168). -/
def outConfigOf (b : OutBlock) : Option OutConfig := do
  let source ← threeOf OutSource.off .demand .latch b.source
  let trigger ← alarmLevelOf b.trigger
  let polarity ← twoOf OutPolarity.activeHigh .activeLow b.polarity
  let drive ← twoOf OutDrive.pushPull .openDrain b.drive
  let mode ← twoOf OutMode.steady .blink b.mode
  let c : OutConfig :=
    { source := source, zoneMask := b.zoneMask, trigger := trigger, safety := b.safety != 0, minOnS := b.minOnS.toNat,
      minOffS := b.minOffS.toNat, polarity := polarity, drive := drive, mode := mode, blinkOn := b.blinkOn.toNat,
      blinkOff := b.blinkOff.toNat }
  if outInRange c then some c else none

/-- Mode and level of ZONE HOLD: ASSERT with WATCH, WARN or WET, SUPPRESS with none (R67 step 2). -/
def holdModeOf (mode level : Byte) : Option HoldMode :=
  if mode = 1 then (if level = 0xFF then some .suppress else none)
  else if mode = 2 then (alarmLevelOf level).map HoldMode.assert
  else none

/-- Minutes of a hold or a claim, 1..1440 (R67, R111). -/
def minutesOf (m : Half) : Option Nat := if withinNat 1 1440 m.toNat then some m.toNat else none

/-- The body of LINK SET; none where a kind outside the eleven, a level or a gather delay is out of range (R95). -/
def linkSettingsOf (zoneMask : Byte) (kinds : Half) (minLevel : Byte) (gatherMs : Half) : Option LinkSettings := do
  let level ← levelOf minLevel
  let c : LinkSettings :=
    { filter := { zoneMask := zoneMask, kinds := kinds.setWidth 11, minLevel := level }, gatherMs := gatherMs.toNat }
  if kinds.toNat < 2048 && linkInRange c then some c else none

/-- The body of LINK RANK; none where a link is missing, repeated or not a link (R116). -/
def rankOf (x y z : Byte) : Option Rank := do
  let first ← linkOf x
  let second ← linkOf y
  let third ← linkOf z
  let r : Rank := ⟨first, second, third⟩
  if rankComplete r then some r else none

/-! ### Roles of lines -/

/-- A configuration names line `n` as its air line. -/
def namesAir (n : LineId) (c : ZoneConfig) : Bool := c.air = some n

/-- A configuration names line `n` as a surface line. -/
def namesSurface (n : LineId) (c : ZoneConfig) : Bool := c.surfaces.contains n

/-- The configurations of a zone that role checks read: the active one and the pending one, where present (R13). -/
def ZoneRecord.configs (r : ZoneRecord) : List ZoneConfig :=
  match r.pendingConfig with
  | some p => [r.active, p.config]
  | none => [r.active]

/-- The zones in order, each with its configurations. -/
def zoneTable (f : ZoneId → List ZoneConfig) : List (ZoneId × List ZoneConfig) :=
  (List.finRange 8).map (fun z => (z, f z))

/-- The lowest-numbered zone of a table with a configuration that satisfies `p`. -/
def firstZone (table : List (ZoneId × List ZoneConfig)) (p : ZoneConfig → Bool) : Option ZoneId :=
  (table.find? (fun e => e.2.any p)).map (fun e => e.1)

/-- The role checks of R13 in their order, against the line kinds and the configurations of the other zones: the first
line that fails, with the zone that holds it, none for a kind check. -/
def roleConflict (kind : LineId → LineKind) (others : List (ZoneId × List ZoneConfig)) (c : ZoneConfig) :
    Option (LineId × Option ZoneId) :=
  let check1 := (c.air.toList.find? (fun n => kind n != .air)).map (fun n => (n, none))
  let check2 := (c.surfaces.find? (fun n => kind n != .surface)).map (fun n => (n, none))
  let held (lines : List LineId) (names : LineId → ZoneConfig → Bool) :=
    lines.findSome? (fun n => (firstZone others (names n)).map (fun z => (n, some z)))
  ((((check1.or check2).or (held c.air.toList namesAir)).or (held c.air.toList namesSurface)).or
    (held c.surfaces namesAir))

/-- The seven other zones' configurations (R13). -/
def othersOf (z : ZoneId) (f : ZoneId → List ZoneConfig) : List (ZoneId × List ZoneConfig) :=
  (zoneTable f).filter (fun e => e.1 != z)

/-- Every field of the settings lies in its range, and the zone configurations pass the role checks against each other
and against the line kinds of the same settings (R175, R23). -/
def settingsAccepted (c : Settings) : Bool :=
  c.lines.toList.all lineInRange && c.zones.toList.all zoneInRange && c.outs.toList.all outInRange &&
    rankComplete c.rank && linkInRange c.links.a && linkInRange c.links.b && linkInRange c.links.c &&
    (List.finRange 8).all (fun z =>
      (roleConflict (fun n => c.lines[n].kind) (othersOf z (fun y => [c.zones[y]])) c.zones[z]).isNone)

end Sys2Proof.Machine
end

