-- ==== Sys2Proof/Machine/Flags.lean ====
section
/-!
DEFINITION. Flag bytes and the codes of enumerated values on the wire (R165, R168, R170).
-/

namespace Sys2Proof.Machine

/-- A flag or presence byte: 1 set or present, 0 clear or absent (R168). -/
def flagByte (b : Bool) : Byte := if b then 1 else 0

/-- The level code of an absent level (R168). -/
def noneByte : Byte := 0xFF

/-- Status codes (R165). -/
def StatusCode.code : StatusCode → Byte
  | .done => 0x00
  | .accepted => 0x01
  | .outranked => 0x02
  | .stale => 0x03
  | .nothing => 0x04
  | .badArg => 0x10
  | .noSuch => 0x11
  | .conflict => 0x12
  | .busy => 0x13
  | .restarting => 0x14
  | .badLength => 0x15
  | .unknownKind => 0x16

/-- The link flags of a response: bit 0 overrun, bit 1 lagging, bit 2 attention asserted (R168). -/
def linkFlags (overrun lagging attention : Bool) : Byte :=
  flagByte overrun + 2 * flagByte lagging + 4 * flagByte attention

/-- The flags of last_eval: bit 0 DP_FLOOR, bit 1 SATURATED_INPUT, bit 2 AGED_SURFACE (R171). -/
def evalFlags (e : LastEval) : Byte := flagByte e.dpFloor + 2 * flagByte e.saturatedInput + 4 * flagByte e.agedSurface

/-- A link's code; 0 for none (R168). -/
def linkCode : Link → Nat
  | .a => 1
  | .b => 2
  | .c => 3

/-- The byte of an optional link. -/
def linkByte (l : Option Link) : Byte :=
  match l with
  | some l => byteOf (linkCode l)
  | none => 0

/-- A level's byte. -/
def levelByte (x : Level) : Byte := byteOf x.rank

/-- An optional level's byte, 0xFF for none. -/
def levelByteOpt (x : Option Level) : Byte :=
  match x with
  | some x => levelByte x
  | none => noneByte

/-- From and to codes of a LEVEL entry: the levels 0 to 3, 4 UNKNOWN, 5 STARTING (R168). -/
def Condition.code : Condition → Nat
  | .level x => x.rank
  | .unknown => 4
  | .starting => 5

/-- Zone status codes (R168). -/
def ZoneStatus.code : ZoneStatus → Nat
  | .disabled => 0
  | .starting => 1
  | .active => 2
  | .unknown => 3

/-- Reason codes, 0 for none (R168). -/
def reasonCode : Option UnknownReason → Nat
  | none => 0
  | some .stale => 1
  | some .airBad => 2
  | some .noSurface => 3

/-- Hold mode codes (R168). -/
def HoldMode.code : HoldMode → Nat
  | .suppress => 1
  | .assert _ => 2

/-- The level a hold asserts, none for SUPPRESS (R66). -/
def HoldMode.level? : HoldMode → Option Level
  | .suppress => none
  | .assert x => some x

/-- Line kind codes (R168). -/
def kindCode : LineKind → Nat
  | .off => 0
  | .air => 1
  | .surface => 2

/-- Reference edge codes (R168). -/
def edgeCode : Edge → Nat
  | .rising => 0
  | .falling => 1

/-- Line polarity codes (R168). -/
def linePolarityCode : LinePolarity → Nat
  | .normal => 0
  | .inverted => 1

/-- Window codes (R168). -/
def windowCode : WindowSize → Nat
  | .w16 => 0
  | .w64 => 1
  | .w256 => 2

/-- Line state codes (R168). -/
def LineState.code : LineState → Nat
  | .off => 0
  | .warmup => 1
  | .acquiring => 2
  | .stalled => 3

/-- Quality codes (R168). -/
def Quality.code : Quality → Nat
  | .none => 0
  | .good => 1
  | .saturated => 2
  | .range => 3

/-- Output source codes (R168). -/
def sourceCode : OutSource → Nat
  | .off => 0
  | .demand => 1
  | .latch => 2

/-- Output state codes (R168). -/
def OutState.code : OutState → Nat
  | .offFree => 0
  | .offHeld => 1
  | .onHeld => 2
  | .onFree => 3

/-- Output polarity codes (R168). -/
def outPolarityCode : OutPolarity → Nat
  | .activeHigh => 0
  | .activeLow => 1

/-- Drive codes (R168). -/
def driveCode : OutDrive → Nat
  | .pushPull => 0
  | .openDrain => 1

/-- Mode codes (R168). -/
def modeCode : OutMode → Nat
  | .steady => 0
  | .blink => 1

/-- The state byte of a claim, a demand, a wanted or a logical state: 0 OFF, 1 ON (R168). -/
def onByte (b : Bool) : Byte := flagByte b

/-- Store result codes in STATUS, 0 for none (R169). -/
def storeResultCode : Option StoreResult → Nat
  | none => 0
  | some .saved => 1
  | some .failed => 2

/-- Cause codes of START (R170). -/
def Cause.code : Cause → Nat
  | .powerOn => 1
  | .resetPin => 2
  | .restart l => 2 + linkCode l

/-- The bit of a cause in a restart cause set: 0 POWER_ON, 1 RESET_PIN, 2 to 4 RESTART_A to C (R169). -/
def Cause.bit (c : Cause) : BitVec 5 := BitVec.twoPow 5 (c.code - 1)

/-- Configuration source codes (R170). -/
def ConfigSource.code : ConfigSource → Nat
  | .defaults => 0
  | .stored => 1

/-- Two four-bit values in one byte, the first in bits 7..4 (R170). -/
def nibbles (hi lo : Nat) : Byte := byteOf (16 * hi + lo)

/-- Subject of an entry (R82, R83): the number of the zone, line, output or link it is about, or 0. -/
def Content.subject : Content → Nat
  | .start _ _ => 0
  | .level z _ _ _ _ _ _ _ _ => z.val + 1
  | .probeFault n _ => n.val + 1
  | .probeOk n => n.val + 1
  | .config (.zone z _) _ => z.val + 1
  | .config (.line n) _ => n.val + 1
  | .config (.output o) _ => o.val + 1
  | .config (.link l) _ => linkCode l
  | .config .rank _ => 0
  | .hold z _ _ _ => z.val + 1
  | .holdEnd z _ _ => z.val + 1
  | .ack z _ _ => z.val + 1
  | .output o _ _ _ => o.val + 1
  | .claimEnd o _ _ => o.val + 1
  | .store _ => 0

/-- Class codes of CONFIG (R170). -/
def ConfigSubject.classCode : ConfigSubject → Nat
  | .zone _ _ => 1
  | .line _ => 2
  | .output _ => 3
  | .link _ => 4
  | .rank => 5

/-- The epoch a CONFIG entry carries, 0 outside class ZONE (R83). -/
def ConfigSubject.epoch : ConfigSubject → Nat
  | .zone _ e => e.toNat
  | _ => 0

/-- Cause codes of OUTPUT in bits 7..4, the winner's link in bits 3..0 for CLAIM (R170). -/
def OutCause.code : OutCause → Byte
  | .auto => nibbles 1 0
  | .claim l => nibbles 2 (linkCode l)
  | .safety => nibbles 3 0
  | .minHoldEnd => nibbles 4 0
  | .expiry => nibbles 5 0

/-- Small operand a (R170). -/
def Content.operandA : Content → Byte
  | .start c _ => byteOf c.code
  | .level _ old new _ _ _ _ _ _ => nibbles old.code new.code
  | .probeFault _ .stalled => 1
  | .probeFault _ .range => 2
  | .probeOk _ => 0
  | .config s _ => byteOf s.classCode
  | .hold _ l _ _ => byteOf (linkCode l)
  | .holdEnd _ .released _ => 1
  | .holdEnd _ .expired _ => 2
  | .ack _ l _ => byteOf (linkCode l)
  | .output _ old new _ => nibbles (if old then 1 else 0) (if new then 1 else 0)
  | .claimEnd _ l _ => byteOf (linkCode l)
  | .store .saved => 1
  | .store .failed => 2

/-- Small operand b (R170). -/
def Content.operandB : Content → Byte
  | .start _ s => byteOf s.code
  | .level _ _ _ held projected floor reason _ _ =>
    flagByte held + 2 * flagByte projected + 4 * flagByte floor + nibbles (reasonCode reason) 0
  | .probeFault _ _ => 0
  | .probeOk _ => 0
  | .config _ l => byteOf (linkCode l)
  | .hold _ _ m _ =>
    nibbles m.code (match m.level? with
      | some x => x.rank
      | none => 0xF)
  | .holdEnd _ _ l => byteOf (linkCode l)
  | .ack _ _ _ => 0
  | .output _ _ _ c => c.code
  | .claimEnd _ _ .dropped => 1
  | .claimEnd _ _ .expired => 2
  | .claimEnd _ _ .replaced => 3
  | .store _ => 0

/-- Signed operand x (R170); the seq of an ACK entry fills it as a bit pattern. -/
def Content.operandX : Content → Int
  | .level _ _ _ _ _ _ _ g _ => g
  | .config s _ => s.epoch
  | .hold _ _ _ minutes => minutes
  | .ack _ _ seq => seq
  | _ => 0

/-- Signed operand y (R170). -/
def Content.operandY : Content → Int
  | .level _ _ _ _ _ _ _ _ td => td
  | _ => 0

/-- The 14 bytes of an entry in a FETCH response (R170). -/
def Entry.bytes (e : Entry) : List Byte :=
  halfOf e.seq ++ wordBytes e.time ++
    [byteOf e.content.kindCode, byteOf e.content.subject, e.content.operandA, e.content.operandB] ++
    halfOfInt e.content.operandX ++ halfOfInt e.content.operandY

end Sys2Proof.Machine
end

