-- ==== Sys2Proof/Machine/ZoneOps.lean ====
section
/-!
DEFINITION. What the zone table's requests and events share: the effective level (R64, R65), transfer (R18 to R20), the
posting of a LEVEL entry with its latch decision (R61, R62, R74), and the notice to the outputs (R65).
-/

namespace Sys2Proof.Machine

/-- The worse of two levels (R64). -/
def worseLevel (x y : Level) : Level := if x.rank ≤ y.rank then y else x

/-- The base of the effective level, from the status (R64). -/
def ZoneRecord.base (r : ZoneRecord) : Option Level :=
  match r.status with
  | .disabled => none
  | .starting => some r.active.failLevel
  | .active => some r.level
  | .unknown => some r.active.failLevel

/-- The effective level: the base with the hold applied (R64). -/
def ZoneRecord.effective (r : ZoneRecord) : Option Level :=
  match r.base, r.hold with
  | none, _ => none
  | some x, none => some x
  | some x, some h =>
    match h.mode with
    | .suppress => some .clear
    | .assert y => some (worseLevel x y)

/-- The zone tells the outputs when its effective level differs from the one before the event, or its latch was set,
re-stamped or cleared in it (R65). -/
def State.inform (z : ZoneId) (before : ZoneRecord) (latchTouched : Bool) (s : State) : State :=
  if before.effective ≠ (s.zone z).effective ∨ latchTouched then s.tell z else s

/-- Two configurations name the same air line and the same set of surface lines (R18 step 4). -/
def sameLines (c d : ZoneConfig) : Bool :=
  c.air = d.air && c.surfaces.all (fun n => d.surfaces.contains n) && d.surfaces.all (fun n => c.surfaces.contains n)

/-- The stale deadline for a zone that becomes STARTING: armed, but not in the warm-up (R20). -/
def startingDeadline (now : Word) (warm : Bool) (c : ZoneConfig) : Option Word :=
  if warm then none else some (secondsAfter now c.staleS)

/-- Steps 1, 2 and 4 of a transfer: the configuration, the epoch, and what a change of lines clears (R18). -/
def ZoneRecord.takeConfig (c : ZoneConfig) (r : ZoneRecord) : ZoneRecord :=
  let r' := { r with active := c, pendingConfig := none, epoch := r.epoch + 1 }
  if sameLines r.active c then r' else { r' with history := [], pending := none, failCount := 0, lastEval := none }

/-- The record after a transfer of `c`: R18, with the status as R19 gives and the deadline as R20. -/
def ZoneRecord.transfer (now : Word) (warm : Bool) (c : ZoneConfig) (r : ZoneRecord) : ZoneRecord :=
  let r' := r.takeConfig c
  match r.status, zoneEnabled c with
  | .disabled, false => r'
  | .disabled, true => { r' with status := .starting, level := .clear, deadline := startingDeadline now warm c }
  | _, true => r'
  | _, false => { r' with status := .disabled, deadline := none, pending := none, unknownReason := none }

/-- A transfer at zone `z`: the record, and the CONFIG entry with the writer and the new epoch (R18). -/
def State.transfer (z : ZoneId) (writer : Link) (c : ZoneConfig) (s : State) : State :=
  let r := (s.zone z).transfer s.now s.warm c
  (s.setZone z r).post (.config (.zone z r.epoch) writer)

/-- The pending configuration of a zone transferred, if one is present (R17, R43). -/
def State.transferPending (z : ZoneId) (s : State) : State :=
  match (s.zone z).pendingConfig with
  | some p => s.transfer z p.writer p.config
  | none => s

/-- A hold in SUPPRESS mode (R62). -/
def ZoneRecord.suppressed (r : ZoneRecord) : Bool :=
  match r.hold with
  | some h => h.mode = .suppress
  | none => false

/-- What a LEVEL entry says beside its zone and HELD (R62). -/
structure LevelNotice where
  old : Condition
  new : Condition
  projected : Bool
  dpFloor : Bool
  reason : Option UnknownReason
  g : Int
  td : Int
  deriving DecidableEq, Repr

/-- R74: the entry sets or re-stamps the latch: to WARN or WET, from STARTING, UNKNOWN or a better level, and not HELD. -/
def LevelNotice.latches (n : LevelNotice) (held : Bool) : Bool :=
  !held &&
    match n.old, n.new with
    | .level x, .level y => Level.warn.rank ≤ y.rank && x.rank < y.rank
    | _, .level y => Level.warn.rank ≤ y.rank
    | _, _ => false

/-- A LEVEL entry posted, HELD by the zone's hold at that moment, and the latch decided from its seq; whether the latch
was set or re-stamped (R61, R62, R74). -/
def State.postLevel (z : ZoneId) (n : LevelNotice) (s : State) : State × Bool :=
  let held := (s.zone z).suppressed
  let s' := s.post (.level z n.old n.new held n.projected n.dpFloor n.reason n.g n.td)
  if n.latches held then (s'.setZone z { s'.zone z with latch := some s'.queue.newest }, true) else (s', false)

/-- A LEVEL entry posted if there is one. -/
def State.postLevelOpt (z : ZoneId) (n : Option LevelNotice) (s : State) : State × Bool :=
  match n with
  | some n => s.postLevel z n
  | none => (s, false)

/-- The condition a zone leaves, as a LEVEL entry names it: STARTING, UNKNOWN or its level (R48, R53, R57). -/
def ZoneRecord.condition (r : ZoneRecord) : Condition :=
  match r.status with
  | .starting => .starting
  | .unknown => .unknown
  | .active => .level r.level
  | .disabled => .level r.level

/-- The change to UNKNOWN: reason recorded, pending level and history given up (R48, R57). -/
def ZoneRecord.turnUnknown (why : UnknownReason) (r : ZoneRecord) : ZoneRecord :=
  { r with status := .unknown, unknownReason := some why, pending := none, history := [] }

/-- The LEVEL entry of a change to UNKNOWN (R62). -/
def ZoneRecord.unknownNotice (why : UnknownReason) (r : ZoneRecord) : LevelNotice :=
  { old := r.condition, new := .unknown, projected := false, dpFloor := false, reason := some why, g := 0, td := 0 }

end Sys2Proof.Machine
end

