-- ==== Sys2Proof/Machine/LinkOps.lean ====
section
/-!
DEFINITION. How a request is answered: the response's assembly (R164), and when a request command is taken by its owner
(R160, R163).
-/

namespace Sys2Proof.Machine

/-- What an owning block makes of a request: the state it leaves, the status code and the response body (R163 step 4). -/
structure Answer where
  state : State
  status : StatusCode
  body : List Byte

/-- A refusal: nothing changed and no body (R165). -/
def refuse (s : State) (c : StatusCode) : Answer := { state := s, status := c, body := [] }

/-- The response frame: lead byte, length, kind, status, link flags, body and check (R164, R168). -/
def responseFrame (kind status flags : Byte) (body : List Byte) : List Byte :=
  let counted := byteOf (3 + body.length) :: kind :: status :: flags :: body
  0xC6 :: counted ++ [0 - byteSum counted]

/-- The response assembled from the flags as they now stand, `overrun` cleared, the link SENDING and its driver enable
asserted (R164). -/
def State.respond (l : Link) (kind : Byte) (status : StatusCode) (body : List Byte) (s : State) : State :=
  let r := s.link l
  let flags := linkFlags r.overrun (s.cursor l).lagging (s.cursor l).attention
  s.setLink l
    { r with rx := .sending, buffer := [], gapAt := none, overrun := false, serving := none,
             response := some (responseFrame kind status.code flags body), driverEnable := true }

/-- How a request command meets its link. -/
inductive Admission where
  /-- The owning block takes it. -/
  | taken
  /-- A restart is pending: RESTARTING (R163 step 3). -/
  | restarting
  /-- Its body fits no frame: BAD_LENGTH (R163). -/
  | badLength
  /-- Its characters arrive while the link is serving or sending: only `overrun` is set (R160, R166). -/
  | overrun
  /-- A frame in flight or a drain is on the link: no valid frame of this request arrives (R160). -/
  | lost
  deriving DecidableEq, Repr

/-- A link in HUNT takes the request's frame whole: the checks of dispatch, then the owner. A link in SERVING that holds
this very request gives it to its owner; RESTART is checked again there, since the restart becomes pending in that same
event (R163, R178). STATUS is served while a restart is pending. DESIGN CHOICE (notes/assumptions/6.md). -/
def State.admission (l : Link) (i : Instr) (s : State) : Admission :=
  let pendingRestart := s.startup.restart.isSome
  match (s.link l).rx with
  | .hunt =>
    if !i.wellFormed then .badLength
    else if pendingRestart && i != .status l then .restarting
    else .taken
  | .serving =>
    if (s.link l).serving = some i then (if pendingRestart && i = .restart l then .restarting else .taken)
    else .overrun
  | .sending => .overrun
  | .length => .lost
  | .body => .lost
  | .drain => .lost

/-- A request command on link `l`: admitted, acted on by its owner, and answered (R163, R164). -/
def State.serve (l : Link) (k : RequestKind) (i : Instr) (act : State → Answer) (s : State) : State :=
  match s.admission l i with
  | .taken => (act s).state.respond l k.code (act s).status (act s).body
  | .restarting => s.respond l k.code .restarting []
  | .badLength => s.respond l k.code .badLength []
  | .overrun => s.setLink l { s.link l with overrun := true }
  | .lost => s

/-- The outcome of a request command: nothing while the reset pin is held low (R176). -/
def serveRequest (l : Link) (k : RequestKind) (i : Instr) (act : State → Answer) (s : State) :
    Host.Outcome State Fault Refusal :=
  .next (s.unlessHeld (fun s => s.serve l k i act))

end Sys2Proof.Machine
end

