-- ==== Sys2Proof/Machine/Layout.lean ====
section
/-!
DEFINITION. The bodies of responses, byte by byte (R169, R171).
-/

namespace Sys2Proof.Machine

/-- Line number byte. -/
def lineByte (n : LineId) : Byte := byteOf (n.val + 1)

/-- Zone number byte. -/
def zoneByte (z : ZoneId) : Byte := byteOf (z.val + 1)

/-- Output number byte. -/
def outByte (o : OutId) : Byte := byteOf (o.val + 1)

/-- An air line's byte, 0 for none (R169). -/
def airByte (n : Option LineId) : Byte :=
  match n with
  | some n => lineByte n
  | none => 0

/-- The line block, 21 bytes (R169). -/
def lineBlockBytes (c : LineConfig) : List Byte :=
  [byteOf (kindCode c.kind), byteOf (edgeCode c.edge), byteOf (linePolarityCode c.polarity),
   byteOf (windowCode c.window), byteOf c.stallMs] ++
    wordOfInt c.rhRef ++ wordOfInt c.rhGain ++ halfOfInt c.rhOffset ++ wordOfInt c.tGain ++ halfOfInt c.tOffset

/-- The zone block, 19 + n bytes (R169). -/
def zoneBlockBytes (c : ZoneConfig) : List Byte :=
  [airByte c.air, byteOf c.surfaces.length] ++ c.surfaces.map lineByte ++
    halfOfInt c.watchBelow ++ halfOfInt c.warnBelow ++ halfOfInt c.wetBelow ++ halfOfInt c.hyst ++
    [byteOf c.worsenConfirm, byteOf c.improveConfirm, byteOf c.lead, levelByte c.failLevel, byteOf c.failLimit] ++
    halfOf c.staleS ++ halfOf c.surfaceAgeS

/-- The output block, 13 bytes (R169). -/
def outBlockBytes (c : OutConfig) : List Byte :=
  [byteOf (sourceCode c.source), c.zoneMask, levelByte c.trigger, flagByte c.safety,
   byteOf (outPolarityCode c.polarity), byteOf (driveCode c.drive), byteOf (modeCode c.mode)] ++
    halfOf c.minOnS ++ halfOf c.minOffS ++ [byteOf c.blinkOn, byteOf c.blinkOff]

/-- Seconds left before a moment in uptime seconds, 0 once it is reached (R21, R125; notes/assumptions/29.md). -/
def secondsLeft (now t : Word) : Nat := if reached now t then 0 else (t - now).toNat

/-- Minutes left, rounded up to the next whole minute (R21, R66, R125). -/
def minutesLeft (now t : Word) : Nat := (secondsLeft now t + 59) / 60

/-- The zones whose configurations given by `f` satisfy `p`, as a mask (R168, R171). -/
def zonesWhere (p : ZoneId → Bool) : Byte :=
  BitVec.ofNat 8 ((List.finRange 8).foldl (fun m z => if p z then m + 2 ^ z.val else m) 0)

/-- A zone's pending configuration satisfies `p`. -/
def ZoneRecord.pendingIs (p : ZoneConfig → Bool) (r : ZoneRecord) : Bool :=
  match r.pendingConfig with
  | some c => p c.config
  | none => false

/-- The age of a reading in whole seconds, 65,535 standing for more (R145). -/
def readingAge (nowMs : Nat) (g : LastGood) : Nat := min 65535 (msSince nowMs g.time / 1000)

/-- The body of LINE GET, 45 bytes (R145, R171). -/
def lineBody (n : LineId) (s : State) : List Byte :=
  let r := s.line n
  [lineByte n] ++ lineBlockBytes r.config ++
    [byteOf r.state.code, flagByte r.window.isSome,
     (match r.window with
      | some w => byteOf w.periods
      | none => 0),
     byteOf r.lastQuality.code, flagByte r.fault, flagByte r.lastRaw.isSome] ++
    (match r.lastRaw with
      | some x => wordOfInt x.p ++ halfOfInt x.d
      | none => wordOfInt 0 ++ halfOfInt 0) ++
    [flagByte r.lastGood.isSome] ++
    (match r.lastGood with
      | some g =>
        halfOfInt (if r.config.kind = .surface then 0 else g.reading.rh) ++ halfOfInt g.reading.temp ++
          halfOf (readingAge s.nowMs g)
      | none => halfOf 0 ++ halfOf 0 ++ halfOf 0) ++
    [zonesWhere (fun z => namesAir n (s.zone z).active),
     zonesWhere (fun z => (s.zone z).pendingIs (namesAir n)),
     zonesWhere (fun z => namesSurface n (s.zone z).active),
     zonesWhere (fun z => (s.zone z).pendingIs (namesSurface n))]

/-- ZONE GET, part ACTIVE (R21, R171). -/
def zoneActiveBody (z : ZoneId) (r : ZoneRecord) : List Byte :=
  [zoneByte z, r.epoch] ++ zoneBlockBytes r.active

/-- ZONE GET, part PENDING (R21, R171). -/
def zonePendingBody (z : ZoneId) (r : ZoneRecord) : List Byte :=
  match r.pendingConfig with
  | some p => [zoneByte z, r.epoch, 1, linkByte (some p.writer)] ++ zoneBlockBytes p.config
  | none => [zoneByte z, r.epoch, 0, 0]

/-- The hold's part of a STATE body: mode, level, link and minutes left (R171). -/
def holdBytes (now : Word) (h : Option Hold) : List Byte :=
  match h with
  | some h =>
    [byteOf h.mode.code, levelByteOpt h.mode.level?, linkByte (some h.link)] ++ halfOf (minutesLeft now h.expiry)
  | none => [0, noneByte, 0] ++ halfOf 0

/-- ZONE GET, part STATE, 18 bytes (R21, R171). -/
def zoneStateBody (now : Word) (z : ZoneId) (r : ZoneRecord) : List Byte :=
  [zoneByte z, r.epoch, byteOf r.status.code, byteOf (reasonCode r.unknownReason), levelByte r.level] ++
    (match r.pending with
      | some p => [levelByte p.level, byteOf p.count]
      | none => [noneByte, 0]) ++
    [byteOf r.failCount] ++
    (match r.deadline with
      | some d => halfOf (secondsLeft now d)
      | none => halfOf 0) ++
    [levelByteOpt r.effective] ++ holdBytes now r.hold ++
    (match r.latch with
      | some n => halfOf n
      | none => halfOf 0)

/-- The last_eval part of an EVAL body, 22 bytes (R171). -/
def lastEvalBytes (e : LastEval) : List Byte :=
  [1] ++ wordBytes e.time ++ halfOfInt e.airT ++ halfOfInt e.rh ++ halfOfInt e.e ++ halfOfInt e.td ++
    [evalFlags e] ++ halfOfInt e.m ++ [flagByte e.p.isSome] ++ halfOfInt (e.p.getD 0) ++ halfOfInt e.g ++
    [lineByte e.coldest]

/-- ZONE GET, part EVAL, 33 bytes (R21, R171). -/
def zoneEvalBody (z : ZoneId) (r : ZoneRecord) : List Byte :=
  [zoneByte z, r.epoch, byteOf r.history.length] ++
    (List.range 4).flatMap (fun k => halfOfInt (r.history.getD k 0)) ++
    (match r.lastEval with
      | some e => lastEvalBytes e
      | none => List.replicate 22 0)

/-- The logical state of an output (R118). -/
def OutState.isOn : OutState → Bool
  | .offFree => false
  | .offHeld => false
  | .onHeld => true
  | .onFree => true

/-- The output is held (R118). -/
def OutState.isHeld : OutState → Bool
  | .offFree => false
  | .offHeld => true
  | .onHeld => true
  | .onFree => false

/-- The minimum time of the present state (R119). -/
def OutRecord.minTime (r : OutRecord) : Nat :=
  match r.outState with
  | .onHeld => r.config.minOnS
  | .offHeld => r.config.minOffS
  | .offFree => 0
  | .onFree => 0

/-- The uptime second the hold in force is to end at (R119, R122). -/
def OutRecord.holdEnd (r : OutRecord) : Option Word := r.holdStart.map (fun t => secondsAfter t r.minTime)

/-- The pin is active: logically ON and, in BLINK mode, in its on phase (R123). -/
def OutRecord.pinActive (r : OutRecord) : Bool :=
  r.outState.isOn &&
    match r.config.mode with
    | .steady => true
    | .blink =>
      match r.blink with
      | some b => b.onPhase
      | none => false

/-- A deferred change: held, and wanted differs from the logical state (R118). -/
def OutRecord.deferred (r : OutRecord) : Bool := r.outState.isHeld && r.wanted != r.outState.isOn

/-- A claim slot's part of OUT GET: presence, state and minutes left (R125, R171). -/
def claimBytes (now : Word) (c : Option Claim) : List Byte :=
  match c with
  | some c => [1, onByte c.on] ++ halfOf (minutesLeft now c.expiry)
  | none => [0, 0] ++ halfOf 0

/-- The rank as three link bytes (R169). -/
def rankBytes (r : Rank) : List Byte := [linkByte (some r.first), linkByte (some r.second), linkByte (some r.third)]

/-- The body of OUT GET, 38 bytes (R125, R171). -/
def outBody (o : OutId) (s : State) : List Byte :=
  let r := s.out o
  [outByte o] ++ outBlockBytes r.config ++ [onByte r.demand] ++
    claimBytes s.now r.claims.a ++ claimBytes s.now r.claims.b ++ claimBytes s.now r.claims.c ++
    [linkByte r.winner] ++ rankBytes s.rank ++
    [onByte r.wanted, flagByte r.overridden, byteOf r.outState.code] ++
    (match r.holdEnd with
      | some t => halfOf (secondsLeft s.now t)
      | none => halfOf 0) ++
    [flagByte r.deferred, flagByte r.pinActive]

/-- The seq of the oldest entry held (R81). -/
def Queue.oldest (q : Queue) : Nat :=
  match q.ring with
  | e :: _ => e.seq
  | [] => q.newest

/-- The store state byte of STATUS (R169). -/
def storeStateByte : StoreState → Byte
  | .idle => 0
  | .writing _ => 1

/-- The family code of the part (R169). -/
def familyCode : Byte := 0x3A

/-- The revision code of parts described by the manual (R180). -/
def revisionCode : Byte := 1

/-- The body of STATUS, 18 bytes (R169, R180). -/
def statusBody (l : Link) (s : State) : List Byte :=
  [familyCode, revisionCode] ++ wordBytes s.now ++
    [flagByte s.warm, storeStateByte s.store.state, byteOf (storeResultCode s.store.lastResult),
     (s.startup.causes.get l).setWidth 8] ++
    halfOf (s.link l).discarded ++
    [byteOf (s.cursor l).backlog, byteOf (s.cursor l).missed] ++
    halfOf s.queue.oldest ++ halfOf s.queue.newest

end Sys2Proof.Machine
end

