-- ==== Sys2Proof/Machine/Events.lean ====
section
/-!
DEFINITION. The event queue's requests and the gather timer (R91 to R96).
-/

namespace Sys2Proof.Machine

/-! ### EVENTS FETCH -/

/-- The scan of a fetch: at most `n` matching entries, and the entries after the last one scanned; the scan stops at
`n` or past the newest (R91 step 1, R92). -/
def scanMatching (f : Filter) : Nat → List Entry → List Entry × List Entry
  | 0, rest => ([], rest)
  | _ + 1, [] => ([], [])
  | n + 1, e :: rest =>
    if matchesFilter f e.content then
      let (got, after) := scanMatching f n rest
      (e :: got, after)
    else scanMatching f (n + 1) rest

/-- The cursor on the first of the entries left, or one past the newest (R92). -/
def cursorAt (newest : Nat) : List Entry → Nat
  | e :: _ => e.seq
  | [] => nextSeq newest

/-- What a fetch of `n` entries collects for link `l`, and what it leaves (R91 step 1). -/
def State.scan (l : Link) (n : Nat) (s : State) : List Entry × List Entry :=
  scanMatching (s.cursor l).settings.filter n (fromCursor s.queue.ring (s.cursor l).cursor)

/-- A fetch at the link's cursor record: cursor, `missed` reported and cleared, backlog, lagging, attention (R91). -/
def State.fetch (l : Link) (n : Nat) (s : State) : State :=
  let r := s.cursor l
  let (got, after) := s.scan l n
  let r' := { r with cursor := cursorAt s.queue.newest after, missed := 0 }
  s.setCursor l ((r'.setBacklog (r.backlog - got.length)).refresh s.tick s.queue.ring)

/-- The event queue's answer to EVENTS FETCH (R91). -/
def answerEventsFetch (l : Link) (n : Byte) (s : State) : Answer :=
  if withinNat 1 4 n.toNat then
    let s' := s.fetch l n.toNat
    let got := (s.scan l n.toNat).1
    { state := s', status := .done,
      body := [byteOf got.length, byteOf (s.cursor l).missed, byteOf (s'.cursor l).backlog] ++
        got.flatMap Entry.bytes }
  else refuse s .badArg

/-- EVENTS_FETCH. -/
def execEventsFetch (l : Link) (n : Byte) (s : State) : Host.Outcome State Fault Refusal :=
  serveRequest l .eventsFetch (.eventsFetch l n) (answerEventsFetch l n) s

/-! ### EVENTS SEEK -/

/-- Outcomes of a seek (R93, R94, R169). -/
inductive SeekOutcome where
  | oldest | newest | held | older
  deriving DecidableEq, Repr

/-- Outcome codes (R169). -/
def SeekOutcome.code : SeekOutcome → Byte
  | .oldest => 0
  | .newest => 1
  | .held => 2
  | .older => 3

/-- The distance of seq `s` behind the newest, over the numbers 1 to 65535 (R94). -/
def seqDistance (newest s : Nat) : Nat := if s ≤ newest then newest - s else newest + 65535 - s

/-- Where a seek places the cursor, and with which outcome; none is refused (R93, R94). -/
def Queue.seekPlace (target : Byte) (seq : Half) (q : Queue) : Option (Nat × SeekOutcome) :=
  if target = 0 then some (q.oldest, .oldest)
  else if target = 1 then some (nextSeq q.newest, .newest)
  else if target = 2 && seq != 0 then
    let d := seqDistance q.newest seq.toNat
    if d < q.ring.length then some (seq.toNat, .held)
    else if d ≤ 32767 then some (q.oldest, .older)
    else none
  else none

/-- A seek at the link's cursor record: cursor, `missed` cleared by OLDER, backlog counted afresh, lagging, attention
(R93, R94). -/
def State.seek (l : Link) (cursor : Nat) (o : SeekOutcome) (s : State) : State :=
  let r := s.cursor l
  let r' := { r with cursor := cursor, missed := if o = SeekOutcome.older then 0 else r.missed }
  s.setCursor l ((r'.recount s.queue.ring).refresh s.tick s.queue.ring)

/-- The event queue's answer to EVENTS SEEK (R93, R94). -/
def answerEventsSeek (l : Link) (target : Byte) (seq : Half) (s : State) : Answer :=
  match s.queue.seekPlace target seq with
  | none => refuse s .badArg
  | some (c, o) =>
    let s' := s.seek l c o
    let r := s'.cursor l
    { state := s', status := .done, body := [o.code] ++ halfOf r.cursor ++ [byteOf r.backlog, byteOf r.missed] }

/-- EVENTS_SEEK. -/
def execEventsSeek (l : Link) (target : Byte) (seq : Half) (s : State) : Host.Outcome State Fault Refusal :=
  serveRequest l .eventsSeek (.eventsSeek l target seq) (answerEventsSeek l target seq) s

/-! ### LINK SET -/

/-- A LINK SET that passed: filter and gather delay written, backlog and lagging under the new filter, CONFIG posted,
attention (R95; notes/assumptions/12.md). The posting brings every link's attention up to date. -/
def State.writeLink (l : Link) (c : LinkSettings) (s : State) : State :=
  (s.setCursor l ({ s.cursor l with settings := c }.recount s.queue.ring)).post (.config (.link l) l)

/-- The event queue's answer to LINK SET (R95). -/
def answerLinkSet (l : Link) (zoneMask : Byte) (kinds : Half) (minLevel : Byte) (gatherMs : Half) (s : State) :
    Answer :=
  match linkSettingsOf zoneMask kinds minLevel gatherMs with
  | none => refuse s .badArg
  | some c =>
    let s' := s.writeLink l c
    { state := s', status := .done, body := [byteOf (s'.cursor l).backlog] }

/-- LINK_SET. -/
def execLinkSet (l : Link) (zoneMask : Byte) (kinds : Half) (minLevel : Byte) (gatherMs : Half) (s : State) :
    Host.Outcome State Fault Refusal :=
  serveRequest l .linkSet (.linkSet l zoneMask kinds minLevel gatherMs)
    (answerLinkSet l zoneMask kinds minLevel gatherMs) s

/-! ### The gather timer -/

/-- The expiry of a running gather timer: attention asserts when the backlog is 1 or more (R96). -/
def CursorRecord.gatherExpire (r : CursorRecord) : CursorRecord :=
  { r with gatherAt := none, attention := r.attention || 1 ≤ r.backlog }

/-- GATHER_TIMER_EXPIRY: acts once a running timer's expiry is reached (R96). -/
def execGatherTimerExpiry (l : Link) (s : State) : Host.Outcome State Fault Refusal :=
  .next (s.unlessHeld (fun s =>
    if timerDue s.tick (s.cursor l).gatherAt then s.setCursor l (s.cursor l).gatherExpire else s))

end Sys2Proof.Machine
end

