-- ==== Sys2Proof/Machine/Receiver.lean ====
section
/-!
DEFINITION. The link interface's receiver: characters and the gap timer (R160 to R163).
-/

namespace Sys2Proof.Machine

/-- The gap timer runs 20 ms from the last character received (R159). -/
def gapMs : Nat := 20

/-- The gap timer started at `tick`. -/
def gapFrom (tick : Nat) : Option Nat := some (ticksAfter tick gapMs)

/-- A discarded frame counted; the count holds at 65,535 (R159, R160). -/
def LinkRecord.countDiscard (r : LinkRecord) : LinkRecord := { r with discarded := min 65535 (r.discarded + 1) }

/-- A frame discarded with its end unknown: DRAIN, the gap timer counted from this character (R159, R160;
notes/assumptions/30.md). -/
def LinkRecord.drain (tick : Nat) (r : LinkRecord) : LinkRecord :=
  { r.countDiscard with rx := .drain, buffer := [], gapAt := gapFrom tick }

/-- The length byte and the bytes after it, and the check byte, sum to 0 modulo 256 (R162). -/
def frameSumsToZero (buffer : List Byte) (check : Byte) : Bool := byteSum buffer + check = 0

/-- A valid frame's kind and body dispatched: UNKNOWN_KIND, BAD_LENGTH and RESTARTING are answered at once, any other
request is with its owning block while the link is SERVING (R162, R163). -/
def State.dispatch (l : Link) (kind : Byte) (body : List Byte) (s : State) : State :=
  match decodeRequest l kind body with
  | .unknownKind => s.respond l kind .unknownKind []
  | .badLength => s.respond l kind .badLength []
  | .request _ i =>
    if s.startup.restart.isSome && i != .status l then s.respond l kind .restarting []
    else
      s.setLink l { s.link l with rx := .serving, buffer := [], gapAt := none, serving := some i }

/-- The check byte: a valid frame is dispatched, a bad one discarded and the link to HUNT (R162). -/
def State.checkFrame (l : Link) (check : Byte) (s : State) : State :=
  let r := s.link l
  if frameSumsToZero r.buffer check then
    match r.buffer with
    | _ :: kind :: body => s.dispatch l kind body
    | _ => s
  else s.setLink l { r.countDiscard with rx := .hunt, buffer := [], gapAt := none }

/-- The bytes of kind and body the length byte announces, and those held so far (R160). -/
def LinkRecord.bodyComplete (r : LinkRecord) : Bool :=
  match r.buffer with
  | len :: held => len.toNat ≤ held.length
  | [] => false

/-- A character at the link record, by `rx_state` (R160, R166). -/
def State.receive (l : Link) (ch : Character) (s : State) : State :=
  let r := s.link l
  match r.rx with
  | .hunt =>
    if ch.data = 0xC5 && !ch.isError then
      s.setLink l { r with rx := .length, buffer := [], gapAt := gapFrom s.tick }
    else s
  | .length =>
    if ch.isError || ch.data.toNat = 0 || 62 ≤ ch.data.toNat then s.setLink l (r.drain s.tick)
    else s.setLink l { r with rx := .body, buffer := [ch.data], gapAt := gapFrom s.tick }
  | .body =>
    if ch.isError then s.setLink l (r.drain s.tick)
    else if r.bodyComplete then s.checkFrame l ch.data
    else s.setLink l { r with buffer := r.buffer ++ [ch.data], gapAt := gapFrom s.tick }
  | .drain => s.setLink l { r with gapAt := gapFrom s.tick }
  | .serving => s.setLink l { r with overrun := true }
  | .sending => s.setLink l { r with overrun := true }

/-- CHARACTER_RECEIVED: while the reset pin is held low the links receive nothing (R160, R176). -/
def execCharacterReceived (l : Link) (ch : Character) (s : State) : Host.Outcome State Fault Refusal :=
  .next (s.unlessHeld (State.receive l ch))

/-- The gap timer's expiry at the link record: a frame in flight is discarded and counted, a drain ends; the link goes
to HUNT (R161). -/
def LinkRecord.gapExpire (r : LinkRecord) : LinkRecord :=
  match r.rx with
  | .length => { r.countDiscard with rx := .hunt, buffer := [], gapAt := none }
  | .body => { r.countDiscard with rx := .hunt, buffer := [], gapAt := none }
  | .drain => { r with rx := .hunt, gapAt := none }
  | .hunt => r
  | .serving => r
  | .sending => r

/-- GAP_TIMER_EXPIRY: acts once a running timer's expiry is reached (R161). -/
def execGapTimerExpiry (l : Link) (s : State) : Host.Outcome State Fault Refusal :=
  .next (s.unlessHeld (fun s =>
    if timerDue s.tick (s.link l).gapAt then s.setLink l (s.link l).gapExpire else s))

end Sys2Proof.Machine
end

