-- ==== Sys2Proof/Machine/Arithmetic.lean ====
section
/-!
DEFINITION. The condensation arithmetic, R25 to R39: integers throughout, one result set per evaluation.
-/

namespace Sys2Proof.Machine

/-- a / b rounded to the nearest integer, halves away from zero, for positive b (Conventions, Arithmetic; R39). -/
def rounded (a b : Int) : Int := if 0 ≤ a then (2 * a + b) / (2 * b) else -((2 * -a + b) / (2 * b))

/-- x limited to lo..hi. -/
def clampInt (lo hi x : Int) : Int := max lo (min hi x)

/-- The values es_k of the 13 knots, in Pa (R25). -/
def knots : List Int := [611, 872, 1228, 1705, 2339, 3169, 4246, 5627, 7381, 9590, 12344, 15752, 19932]

/-- es_k. -/
def knot (k : Nat) : Int := knots.getD k 0

/-- Saturation pressure es from air temperature T (R27). -/
def saturation (t : Int) : Int :=
  let k := (t / 500).toNat
  if k = 12 then knot 12 else knot k + rounded ((knot (k + 1) - knot k) * (t - 500 * k)) 500

/-- Vapour pressure e from es and RH (R28). -/
def vapour (es rh : Int) : Int := rounded (es * rh) 1000

/-- The segment of e: the largest k with es_k at or below e, for e at or above es_0 (R30 step 1). -/
def segment (e : Int) : Nat := knots.countP (fun v => v ≤ e) - 1

/-- The dew point before its limit, with the DP_FLOOR flag (R29, R30). -/
def dewPointRaw (e : Int) : Int × Bool :=
  if e < 611 then (0, true)
  else
    let k := segment e
    if k = 12 then (6000, false)
    else (500 * k + rounded (500 * (e - knot k)) (knot (k + 1) - knot k), false)

/-- The dew point limited to the air temperature, with DP_FLOOR (R31). -/
def dewPoint (e t : Int) : Int × Bool := (min (dewPointRaw e).1 t, (dewPointRaw e).2)

/-- The smallest difference to the dew point over the usable surfaces and the first line that gives it, going on from
the best found so far (R32). -/
def coldestFrom (td : Int) (best : Int × LineId) : List (LineId × Int) → Int × LineId
  | [] => best
  | (n, x) :: rest => coldestFrom td (if x - td < best.1 then (x - td, n) else best) rest

/-- The projected margin, where the history admits one: four margins held and m below the oldest (R34, R35). -/
def project (history : List Int) (lead : Nat) (m : Int) : Option Int :=
  match history with
  | [h, _, _, _] => if m < h then some (clampInt (-9999) 9999 (m + rounded ((m - h) * lead) 4)) else none
  | _ => none

/-- The governing margin (R37). -/
def govern (m : Int) (p : Option Int) : Int :=
  clampInt (-9999) 9999
    (match p with
      | some p => min m p
      | none => m)

/-- The result set of one evaluation (R38). -/
structure MarginResult where
  e : Int
  td : Int
  dpFloor : Bool
  m : Int
  coldest : LineId
  p : Option Int
  projected : Bool
  g : Int
  deriving DecidableEq, Repr

/-- The arithmetic, from the air reading, the first usable surface and the others in order, the history as it stands
before the evaluation and the lead (R26 to R38). -/
def condensation (airT rh : Int) (first : LineId × Int) (others : List (LineId × Int)) (history : List Int)
    (lead : Nat) : MarginResult :=
  let e := vapour (saturation airT) rh
  let dp := dewPoint e airT
  let best := coldestFrom dp.1 (first.2 - dp.1, first.1) others
  let p := project history lead best.1
  { e := e, td := dp.1, dpFloor := dp.2, m := best.1, coldest := best.2, p := p,
    projected := (match p with
      | some p => p < best.1
      | none => false),
    g := govern best.1 p }

end Sys2Proof.Machine
end

