-- ==== Sys2Proof/Machine/Conversion.lean ====
section
/-!
DEFINITION. Conversion of a completed window, R149 to R156.
-/

namespace Sys2Proof.Machine

/-- Mean period in ns (R150). -/
def meanPeriod (span periods : Nat) : Int := rounded (span * 125) periods

/-- Duty in 0.01 % (R151). -/
def duty (active span : Nat) : Int := rounded (10000 * active) span

/-- The raw check: the limits of a working probe (R152). -/
def rawCheck (p d : Int) : Bool := 25000 ≤ p && p ≤ 1000000 && 100 ≤ d && d ≤ 9900

/-- Relative humidity of an AIR line (R153). -/
def humidity (c : LineConfig) (p : Int) : Int := c.rhOffset + rounded (c.rhGain * (p - c.rhRef)) 65536

/-- Temperature of either kind (R154). -/
def temperature (c : LineConfig) (d : Int) : Int := c.tOffset + rounded (c.tGain * d) 10000

/-- A value sorted against its valid range and the clamp band around it (R155). -/
inductive Sorted where
  | good (x : Int)
  | clamped (x : Int)
  | rejected
  deriving DecidableEq, Repr

/-- The sorting of R155: valid in lo..hi, clamped within `band` of it, rejected beyond. -/
def sortValue (lo hi band x : Int) : Sorted :=
  if lo ≤ x && x ≤ hi then .good x
  else if lo - band ≤ x && x < lo then .clamped lo
  else if hi < x && x ≤ hi + band then .clamped hi
  else .rejected

/-- RH of an AIR line sorted (R155). -/
def sortHumidity (x : Int) : Sorted := sortValue 0 1000 50 x

/-- The temperature of a line sorted by its kind (R155). -/
def sortTemperature (kind : LineKind) (x : Int) : Sorted :=
  match kind with
  | .surface => sortValue (-1000) 6000 100 x
  | _ => sortValue 0 6000 100 x

/-- The quality from the outcomes of RH and temperature (R156). -/
def quality : Sorted → Sorted → Converted
  | .rejected, _ => .range
  | _, .rejected => .range
  | .good rh, .good t => .good ⟨rh, t⟩
  | .good rh, .clamped t => .saturated ⟨rh, t⟩
  | .clamped rh, .good t => .saturated ⟨rh, t⟩
  | .clamped rh, .clamped t => .saturated ⟨rh, t⟩

/-- Conversion of P and D by the line's kind and calibration (R152 to R156). A SURFACE line has no RH to sort. -/
def convertRaw (c : LineConfig) (p d : Int) : Converted :=
  if rawCheck p d then
    quality
      (match c.kind with
        | .surface => .good 0
        | _ => sortHumidity (humidity c p))
      (sortTemperature c.kind (temperature c d))
  else .range

/-- Conversion of a window's totals: P, D and the outcome (R149). -/
def convert (c : LineConfig) (span active : Nat) : RawReading × Converted :=
  let p := meanPeriod span c.window.periods
  let d := duty active span
  (⟨p, d⟩, convertRaw c p d)

end Sys2Proof.Machine
end

