-- ==== Sys2Proof/Machine/Capture.lean ====
section
/-!
DEFINITION. The capture unit: edges, windows and completions (R133 to R138), stalls (R139), LINE SET and LINE GET
(R142 to R145), and the capture tick (R133).
-/

namespace Sys2Proof.Machine

/-! ### Edges and windows -/

/-- The level of the active phase (R133). -/
def activeLevel (p : LinePolarity) : Bool :=
  match p with
  | .normal => true
  | .inverted => false

/-- An edge of the latest tick has not been taken: the level of that tick differs from the sampled one (R133). -/
def LineRecord.edgeWaiting (r : LineRecord) : Bool :=
  match r.sampled with
  | some x => x != r.pin
  | none => false

/-- The waiting edge is the reference edge: a rising edge leaves the level high (R130, R133). -/
def LineRecord.edgeIsReference (r : LineRecord) : Bool :=
  match r.config.edge with
  | .rising => r.pin
  | .falling => !r.pin

/-- A window that begins at `tick` (R135). -/
def Window.begin (tick : Nat) : Window := { periods := 0, span := 0, active := 0, refTick := tick, runActive := 0 }

/-- A later reference edge of the window counted (R135). -/
def Window.count (tick : Nat) (w : Window) : Window :=
  { periods := w.periods + 1, span := w.span + (tick - w.refTick), active := w.active + w.runActive,
    refTick := tick, runActive := 0 }

/-- The stall timer started at `tick` (R139). -/
def stallFrom (tick : Nat) (c : LineConfig) : Option Nat := some (ticksAfter tick c.stallMs)

/-- The result of a completed window taken into the line record (R137). -/
def LineRecord.takeResult (nowMs : Nat) (raw : RawReading) (c : Converted) (r : LineRecord) : LineRecord :=
  match c with
  | .good x =>
    { r with lastQuality := .good, lastRaw := some raw, lastGood := some ⟨x, nowMs⟩, fault := false }
  | .saturated x =>
    { r with lastQuality := .saturated, lastRaw := some raw, lastGood := some ⟨x, nowMs⟩, fault := false }
  | .range => { r with lastQuality := .range, lastRaw := some raw, fault := true }

/-- The entry of a completion, which marks a change of `fault` (R137). -/
def faultEntry (n : LineId) (fault : Bool) (c : Converted) : Option Content :=
  match c with
  | .good _ => if fault then some (.probeOk n) else none
  | .saturated _ => if fault then some (.probeOk n) else none
  | .range => if fault then none else some (.probeFault n .range)

/-- A reference edge at the line record: ignored in OFF and WARMUP; in STALLED a window begins and the line is
ACQUIRING; in ACQUIRING a window begins, a period is counted, or the window completes and the next begins at the same
edge. The stall timer restarts. The outcome of a completed window is handed out (R134 to R137). -/
def LineRecord.referenceEdge (tick nowMs : Nat) (r : LineRecord) : LineRecord × Option Converted :=
  let fresh := { r with window := some (Window.begin tick), stallAt := stallFrom tick r.config }
  match r.state with
  | .off => (r, none)
  | .warmup => (r, none)
  | .stalled => ({ fresh with state := .acquiring }, none)
  | .acquiring =>
    match r.window with
    | none => (fresh, none)
    | some w =>
      let w' := w.count tick
      if w'.periods = r.config.window.periods then
        let (raw, c) := convert r.config w'.span w'.active
        (fresh.takeResult nowMs raw c, some c)
      else ({ r with window := some w', stallAt := stallFrom tick r.config }, none)

/-- A reference edge at line `n`: the record, then PROBE_OK or PROBE_FAULT, then the completion of an AIR line handed
to the zone table (R136 to R138). -/
def State.referenceEdgeAt (n : LineId) (s : State) : State :=
  let r := s.line n
  let (r', done) := r.referenceEdge s.tick s.nowMs
  let s1 := s.setLine n r'
  match done with
  | none => s1
  | some c =>
    let s2 := s1.postOpt (faultEntry n r.fault c)
    if r.config.kind = .air then
      { s2 with handed := s2.handed ++ [{ line := n, result := c, time := s.nowMs }] }
    else s2

/-- The waiting edge of a line followed: `sampled` takes the level it leaves (R133). -/
def State.followEdge (n : LineId) (s : State) : State :=
  s.setLine n { s.line n with sampled := some (s.line n).pin }

/-- The waiting edge of a line taken, as the reference edge or the other (R133, R134). -/
def State.takeEdge (n : LineId) (s : State) : State :=
  if (s.line n).edgeIsReference then (s.followEdge n).referenceEdgeAt n else s.followEdge n

/-- REFERENCE_EDGE: the reference edge of the latest tick is taken; with no such edge waiting, nothing happens
(R133, R135; notes/assumptions/5.md). -/
def execReferenceEdge (n : LineId) (s : State) : Host.Outcome State Fault Refusal :=
  .next (s.unlessHeld (fun s =>
    if (s.line n).edgeWaiting && (s.line n).edgeIsReference then (s.followEdge n).referenceEdgeAt n else s))

/-- NON_REFERENCE_EDGE: the other edge of the latest tick changes `sampled` and nothing else (R133). -/
def execNonReferenceEdge (n : LineId) (s : State) : Host.Outcome State Fault Refusal :=
  .next (s.unlessHeld (fun s =>
    if (s.line n).edgeWaiting && !(s.line n).edgeIsReference then s.followEdge n else s))

/-! ### The capture tick -/

/-- Edges of the latest tick that no command has taken are taken before the next tick (notes/assumptions/5.md). -/
def State.takeWaitingEdges (s : State) : State :=
  (List.finRange 16).foldl (fun s n => if (s.line n).edgeWaiting then s.takeEdge n else s) s

/-- The present tick counted into `run_active` when the sampled level is the active one (R132). -/
def LineRecord.countTick (r : LineRecord) : LineRecord :=
  match r.window with
  | some w =>
    if r.sampled = some (activeLevel r.config.polarity) then
      { r with window := some { w with runActive := w.runActive + 1 } }
    else r
  | none => r

/-- The level of the new tick at a line: the first sample after the store load makes no edge (R132). -/
def LineRecord.sample (level : Bool) (r : LineRecord) : LineRecord :=
  match r.sampled with
  | some _ => { r with pin := level }
  | none => { r with pin := level, sampled := some level }

/-- CAPTURE_TICK: the tick that ends is counted, time moves on by 125 ns, and every line is sampled (R132, R133). -/
def execCaptureTick (levels : BitVec 16) (s : State) : Host.Outcome State Fault Refusal :=
  .next (s.unlessHeld (fun s =>
    let s' := s.takeWaitingEdges
    { s' with tick := s'.tick + 1,
              lines := Vector.ofFn (fun n : Fin 16 => ((s'.line n).countTick).sample (levels.getLsbD n.val)) }))

/-! ### Stalls -/

/-- The expiry of a running stall timer at the line record (R139). -/
def LineRecord.stall (r : LineRecord) : LineRecord :=
  { r with window := none, state := .stalled, stallAt := none, fault := true }

/-- STALL_TIMER_EXPIRY: an ACQUIRING line whose timer has reached its expiry is STALLED, and PROBE_FAULT STALLED is
posted if `fault` was clear (R139). -/
def execStallTimerExpiry (n : LineId) (s : State) : Host.Outcome State Fault Refusal :=
  .next (s.unlessHeld (fun s =>
    let r := s.line n
    if r.state = .acquiring && timerDue s.tick r.stallAt then
      let s' := s.setLine n r.stall
      if r.fault then s' else s'.post (.probeFault n .stalled)
    else s))

/-! ### LINE SET and LINE GET -/

/-- The state of a line that is set up anew: OFF, WARMUP during the warm-up, or ACQUIRING (R143, R148). -/
def startState (warm : Bool) (c : LineConfig) : LineState :=
  if c.kind = .off then .off else if warm then .warmup else .acquiring

/-- A line's measurement started afresh under configuration `c`: what LINE SET and restart share (R143, R148). -/
def LineRecord.startAfresh (tick : Nat) (warm : Bool) (c : LineConfig) (r : LineRecord) : LineRecord :=
  { r with config := c, state := startState warm c, window := none,
           stallAt := if startState warm c = .acquiring then stallFrom tick c else none,
           lastQuality := .none, fault := false, lastRaw := none, lastGood := none }

/-- A configuration names the line in a role its new kind does not have (R142 step 3). -/
def roleBroken (n : LineId) (kind : LineKind) (c : ZoneConfig) : Bool :=
  (namesAir n c && kind != .air) || (namesSurface n c && kind != .surface)

/-- LINE SET's role check over every zone: the lowest-numbered zone that names the line, where one names it in a role
the new kind does not have (R142 step 3). -/
def lineConflict (n : LineId) (kind : LineKind) (s : State) : Option ZoneId :=
  let table := zoneTable (fun z => (s.zone z).configs)
  if (firstZone table (roleBroken n kind)).isSome then
    firstZone table (fun c => namesAir n c || namesSurface n c)
  else none

/-- A LINE SET that passed its checks (R143). -/
def State.writeLine (l : Link) (n : LineId) (c : LineConfig) (s : State) : State :=
  (s.setLine n ((s.line n).startAfresh s.tick s.warm c)).post (.config (.line n) l)

/-- The capture unit's answer to LINE SET (R142, R143). -/
def answerLineSet (l : Link) (line : Byte) (b : LineBlock) (s : State) : Answer :=
  match lineOf line with
  | none => refuse s .noSuch
  | some n =>
    match lineConfigOf b with
    | none => refuse s .badArg
    | some c =>
      match lineConflict n c.kind s with
      | some z => { state := s, status := .conflict, body := [lineByte n, zoneByte z] }
      | none => { state := s.writeLine l n c, status := .done, body := [] }

/-- LINE_SET. -/
def execLineSet (l : Link) (line : Byte) (b : LineBlock) (s : State) : Host.Outcome State Fault Refusal :=
  serveRequest l .lineSet (.lineSet l line b) (answerLineSet l line b) s

/-- The capture unit's answer to LINE GET (R145). -/
def answerLineGet (line : Byte) (s : State) : Answer :=
  match lineOf line with
  | none => refuse s .noSuch
  | some n => { state := s, status := .done, body := lineBody n s }

/-- LINE_GET. -/
def execLineGet (l : Link) (line : Byte) (s : State) : Host.Outcome State Fault Refusal :=
  serveRequest l .lineGet (.lineGet l line) (answerLineGet line) s

end Sys2Proof.Machine
end

