-- ==== Sys2Proof/Machine/Evaluation.lean ====
section
/-!
DEFINITION. A zone's evaluation (R41 to R55) and the expiry of its stale deadline (R57, R58).
-/

namespace Sys2Proof.Machine

/-! ### Levels -/

/-- The threshold function (R51). -/
def thresholdLevel (c : ZoneConfig) (x : Int) : Level :=
  if x ≤ c.wetBelow then .wet else if x ≤ c.warnBelow then .warn else if x ≤ c.watchBelow then .watch else .clear

/-- The better of two levels (R52). -/
def betterLevel (x y : Level) : Level := if x.rank ≤ y.rank then x else y

/-- The raw level of a governing margin against the level held (R52). -/
def rawLevel (c : ZoneConfig) (held : Level) (g : Int) : Level :=
  if held.rank ≤ (thresholdLevel c g).rank then thresholdLevel c g
  else betterLevel held (thresholdLevel c (g - c.hyst))

/-- The confirmation count for a change from `held` to `next`: worse or better (R44, R55). -/
def confirmCount (c : ZoneConfig) (held next : Level) : Nat :=
  if held.rank < next.rank then c.worsenConfirm else c.improveConfirm

/-- Stage 2: the pending count settled against the confirmation count now active (R44). -/
def ZoneRecord.settle (r : ZoneRecord) : ZoneRecord :=
  match r.pending with
  | none => r
  | some p =>
    let k := confirmCount r.active r.level p.level
    if k ≤ p.count then
      { r with pending := if 2 ≤ k then some { p with count := k - 1 } else none }
    else r

/-- `pending` after a raw level that differs from the level (R54). -/
def runAfter (raw : Level) (p : Option PendingLevel) : PendingLevel :=
  match p with
  | some q => if q.level = raw then ⟨raw, q.count + 1⟩ else ⟨raw, 1⟩
  | none => ⟨raw, 1⟩

/-- Hysteresis and confirmation in ACTIVE: the record, and whether the level changed (R52, R54, R55). -/
def ZoneRecord.confirm (g : Int) (r : ZoneRecord) : ZoneRecord × Bool :=
  let raw := rawLevel r.active r.level g
  if raw = r.level then ({ r with pending := none }, false)
  else
    let p := runAfter raw r.pending
    if confirmCount r.active r.level raw ≤ p.count then ({ r with level := raw, pending := none }, true)
    else ({ r with pending := some p }, false)

/-! ### Surfaces -/

/-- A surface line's temperature, where its last good reading is not older than `ageS` (R46, R33). -/
def usableTemp (nowMs ageS : Nat) (r : LineRecord) : Option Int :=
  match r.lastGood with
  | some g => if msSince nowMs g.time ≤ ageS * 1000 then some g.reading.temp else none
  | none => none

/-- The usable surface lines in list order, with their temperatures (R46). -/
def State.usable (c : ZoneConfig) (s : State) : List (LineId × Int) :=
  c.surfaces.filterMap (fun n => (usableTemp s.nowMs c.surfaceAgeS (s.line n)).map (fun t => (n, t)))

/-- AGED_SURFACE: a usable surface line has its fault flag set (R46). -/
def State.agedSurface (us : List (LineId × Int)) (s : State) : Bool := us.any (fun u => (s.line u.1).fault)

/-- A usable surface line's last quality is SATURATED (R46). -/
def State.saturatedSurface (us : List (LineId × Int)) (s : State) : Bool :=
  us.any (fun u => (s.line u.1).lastQuality = .saturated)

/-! ### Failure and success -/

/-- A failed evaluation at the record: the count, which holds at 7, and the change to UNKNOWN at the fail limit of a
STARTING or ACTIVE zone, with its entry (R47 to R49). -/
def ZoneRecord.fail (why : UnknownReason) (r : ZoneRecord) : ZoneRecord × Option LevelNotice :=
  let r' := { r with failCount := min 7 (r.failCount + 1) }
  if r.status != .unknown && r.active.failLimit ≤ r'.failCount then
    (r'.turnUnknown why, some (r.unknownNotice why))
  else (r', none)

/-- A margin appended to the history; a fifth removes the oldest (R10, R50). -/
def appendMargin (h : List Int) (m : Int) : List Int := if h.length < 4 then h ++ [m] else h.drop 1 ++ [m]

/-- The record of success (R50). -/
def ZoneRecord.recordSuccess (now : Word) (airT rh : Int) (saturated aged : Bool) (x : MarginResult)
    (r : ZoneRecord) : ZoneRecord :=
  { r with
    failCount := 0
    deadline := some (secondsAfter now r.active.staleS)
    unknownReason := none
    lastEval := some
      { time := now, airT := airT, rh := rh, e := x.e, td := x.td, dpFloor := x.dpFloor, saturatedInput := saturated,
        agedSurface := aged, m := x.m, p := x.p, g := x.g, coldest := x.coldest }
    history := appendMargin r.history x.m }

/-- Stage 8: the direct exit from STARTING or UNKNOWN (R53), or hysteresis and confirmation in ACTIVE; with the LEVEL
entry, if one is posted (R61, R62). -/
def ZoneRecord.decideLevel (x : MarginResult) (r : ZoneRecord) : ZoneRecord × Option LevelNotice :=
  let notice (new : Level) : LevelNotice :=
    { old := r.condition, new := .level new, projected := x.projected, dpFloor := x.dpFloor, reason := none,
      g := x.g, td := x.td }
  if r.status = .active then
    let (r', changed) := r.confirm x.g
    (r', if changed then some (notice r'.level) else none)
  else
    let new := thresholdLevel r.active x.g
    ({ r with level := new, status := .active, pending := none }, some (notice new))

/-- Stages 3 to 8 on the settled record `r` of a zone, with the completion's outcome (R45 to R55). -/
def State.judge (c : Converted) (r : ZoneRecord) (s : State) : ZoneRecord × Option LevelNotice :=
  let go (x : Reading) (saturatedAir : Bool) : ZoneRecord × Option LevelNotice :=
    match s.usable r.active with
    | [] => r.fail .noSurface
    | u :: us =>
      let res := condensation x.temp x.rh u us r.history r.active.lead
      (r.recordSuccess s.now x.temp x.rh (saturatedAir || s.saturatedSurface (u :: us)) (s.agedSurface (u :: us))
        res).decideLevel res
  match c with
  | .range => r.fail .airBad
  | .good x => go x false
  | .saturated x => go x true

/-- The evaluation of zone `z` by a completion of line `n`: transfer, settlement, judgement, entries, and the notice
to the outputs (R42, R43, R63). It ends after a transfer that took the air line away or left the zone DISABLED. Its
entries stand next to each other in the ring, where R63 and R85 leave room for other blocks' postings between them:
DESIGN CHOICE (notes/assumptions/33.md). -/
def State.evaluate (z : ZoneId) (n : LineId) (c : Converted) (s : State) : State :=
  let before := s.zone z
  let s1 := s.transferPending z
  let r1 := s1.zone z
  if r1.active.air = some n ∧ r1.status ≠ .disabled then
    let (r2, notice) := s1.judge c r1.settle
    let (s2, latched) := (s1.setZone z r2).postLevelOpt z notice
    s2.inform z before latched
  else s1.inform z before false

/-- The zone whose active configuration names line `n` as its air line (R41). -/
def State.airZone (n : LineId) (s : State) : Option ZoneId :=
  (List.finRange 8).find? (fun z => (s.zone z).active.air = some n)

/-- The oldest handed-over completion of a line, and the others (R138). -/
def takeHanded (n : LineId) : List Completion → Option (Completion × List Completion)
  | [] => none
  | c :: rest =>
    if c.line = n then some (c, rest)
    else (takeHanded n rest).map (fun x => (x.1, c :: x.2))

/-- The zone table takes a completion: the evaluation of the zone that names the line, unless it is DISABLED; of no zone
otherwise (R41). -/
def State.takeCompletion (c : Completion) (s : State) : State :=
  match s.airZone c.line with
  | none => s
  | some z => if (s.zone z).status = .disabled then s else s.evaluate z c.line c.result

/-- EVALUATION_EVENT: the oldest handed-over completion of line `n` is taken; with none, nothing happens
(R41, R42, R138). -/
def execEvaluationEvent (n : LineId) (s : State) : Host.Outcome State Fault Refusal :=
  .next (s.unlessHeld (fun s =>
    match takeHanded n s.handed with
    | none => s
    | some (c, rest) => { s with handed := rest }.takeCompletion c))

/-! ### The stale deadline -/

/-- The expiry at zone `z`: a STARTING or ACTIVE zone turns UNKNOWN with reason STALE and posts LEVEL; then a pending
configuration is transferred (R57, R58, R17). LEVEL and CONFIG stand next to each other in the ring, where R63 and R85
leave room for other blocks' postings between them: DESIGN CHOICE (notes/assumptions/33.md). -/
def State.expireDeadline (z : ZoneId) (s : State) : State :=
  let before := s.zone z
  let r := { before with deadline := none }
  match before.status with
  | .disabled => s.setZone z r
  | .unknown => ((s.setZone z r).transferPending z).inform z before false
  | .starting =>
    let (s1, latched) := (s.setZone z (r.turnUnknown .stale)).postLevel z (before.unknownNotice .stale)
    (s1.transferPending z).inform z before latched
  | .active =>
    let (s1, latched) := (s.setZone z (r.turnUnknown .stale)).postLevel z (before.unknownNotice .stale)
    (s1.transferPending z).inform z before latched

/-- STALE_DEADLINE_EXPIRY: acts once the uptime second of an armed deadline is reached (R56 to R58). -/
def execStaleDeadlineExpiry (z : ZoneId) (s : State) : Host.Outcome State Fault Refusal :=
  .next (s.unlessHeld (fun s => if secondDue s.now (s.zone z).deadline then s.expireDeadline z else s))

end Sys2Proof.Machine
end

