-- ==== Sys2Proof/Machine/Outputs.lean ====
section
/-!
DEFINITION. The output unit: demand (R108, R109), claims and rank (R110 to R116), wanted state (R117), minimum holds
(R118 to R120, R122), OUT SET (R121), pin and blink (R123), entries (R124) and OUT GET (R125).
-/

namespace Sys2Proof.Machine

/-! ### Demand, winner, wanted -/

/-- A zone makes a DEMAND output's demand ON: its effective level is at or above the trigger (R108). -/
def zoneDemands (trigger : Level) (r : ZoneRecord) : Bool :=
  match r.effective with
  | some x => trigger.rank ≤ x.rank
  | none => false

/-- The automatic demand from the zones in the mask (R108). -/
def demandOf (zones : Vector ZoneRecord 8) (c : OutConfig) : Bool :=
  match c.source with
  | .off => false
  | .demand => (List.finRange 8).any (fun z => maskHas c.zoneMask z && zoneDemands c.trigger zones[z])
  | .latch => (List.finRange 8).any (fun z => maskHas c.zoneMask z && zones[z].latch.isSome)

/-- The highest-ranked link with a claim (R110). -/
def winnerOf (rank : Rank) (claims : PerLink (Option Claim)) : Option Link :=
  [rank.first, rank.second, rank.third].find? (fun l => (claims.get l).isSome)

/-- The claim the output obeys, if any (R110). -/
def OutRecord.winningClaim (r : OutRecord) : Option Claim := r.winner.bind (fun l => r.claims.get l)

/-- Wanted state and override from winner, demand and the safety flag (the table of R117). -/
def OutRecord.wantedOf (r : OutRecord) : Bool × Bool :=
  match r.winningClaim with
  | none => (r.demand, false)
  | some c =>
    if c.on then (true, false)
    else if r.config.safety && r.demand then (true, true)
    else (false, false)

/-- `winner` formed again (R110). -/
def OutRecord.formWinner (rank : Rank) (r : OutRecord) : OutRecord := { r with winner := winnerOf rank r.claims }

/-- `demand` formed again (R108). -/
def OutRecord.formDemand (zones : Vector ZoneRecord 8) (r : OutRecord) : OutRecord :=
  { r with demand := demandOf zones r.config }

/-- `wanted` and `overridden` formed again (R117). -/
def OutRecord.formWanted (r : OutRecord) : OutRecord :=
  { r with wanted := r.wantedOf.1, overridden := r.wantedOf.2 }

/-- The wanted state's source (R117). -/
def OutRecord.source (r : OutRecord) : OutCause :=
  if r.overridden then .safety
  else
    match r.winner with
    | some l => .claim l
    | none => .auto

/-! ### Turns -/

/-- The pin set from the configuration, the logical state and the blink phase (R123). -/
def OutRecord.setPin (r : OutRecord) : OutRecord := { r with pin := pinLevel r.config r.pinActive }

/-- The on phase started in BLINK mode (R123). -/
def OutRecord.startBlink (nowMs : Nat) (r : OutRecord) : OutRecord :=
  { r with
    blink := match r.config.mode with
      | .steady => none
      | .blink => some { onPhase := true, expiry := msAfter nowMs (r.config.blinkOn * 100) } }

/-- Turn ON: ON_HELD from now, or ON_FREE with no minimum on time (R118, R123). -/
def OutRecord.turnOn (now : Word) (nowMs : Nat) (r : OutRecord) : OutRecord :=
  (({ r with outState := if r.config.minOnS = 0 then .onFree else .onHeld,
             holdStart := if r.config.minOnS = 0 then none else some now }).startBlink nowMs).setPin

/-- Turn OFF: OFF_HELD from now, or OFF_FREE with no minimum off time (R118, R123). -/
def OutRecord.turnOff (now : Word) (r : OutRecord) : OutRecord :=
  ({ r with outState := if r.config.minOffS = 0 then .offFree else .offHeld,
            holdStart := if r.config.minOffS = 0 then none else some now, blink := none }).setPin

/-- The output acts on its wanted state: the record, and the logical state it turned to, if it turned (R118, R120). -/
def OutRecord.act (now : Word) (nowMs : Nat) (r : OutRecord) : OutRecord × Option Bool :=
  match r.outState, r.wanted with
  | .offFree, true => (r.turnOn now nowMs, some true)
  | .offFree, false => (r, none)
  | .offHeld, true => if r.config.safety then (r.turnOn now nowMs, some true) else (r, none)
  | .offHeld, false => (r, none)
  | .onHeld, _ => (r, none)
  | .onFree, true => (r, none)
  | .onFree, false => (r.turnOff now, some false)

/-- An output acts, and a turn posts its OUTPUT entry with the event's cause, or the wanted state's source where the
event has none of its own (R118, R124). -/
def State.actOut (o : OutId) (cause : Option OutCause) (s : State) : State :=
  let r := s.out o
  let (r', turn) := r.act s.now s.nowMs
  let s' := s.setOut o r'
  match turn with
  | none => s'
  | some on => s'.post (.output o (!on) on (cause.getD r.source))

/-- The wanted state formed again and acted on (R117, R118). -/
def State.settleOut (o : OutId) (cause : Option OutCause) (s : State) : State :=
  (s.setOut o (s.out o).formWanted).actOut o cause

/-- Demand formed again, then the wanted state, then the act (R109). -/
def State.demandOut (o : OutId) (s : State) : State :=
  (s.setOut o ((s.out o).formDemand s.zones)).settleOut o none

/-- Winner formed again, then the wanted state, then the act (R110). -/
def State.winnerOut (o : OutId) (cause : Option OutCause) (s : State) : State :=
  (s.setOut o ((s.out o).formWinner s.rank)).settleOut o cause

/-! ### Zone events -/

/-- ZONE_EVENT_AT_OUTPUT: the output takes the oldest notice of zone `z` it was given; it acts if the zone is in its
mask when the notice is taken (R109, R128). With no such notice nothing happens (notes/assumptions/8.md). -/
def execZoneEventAtOutput (z : ZoneId) (o : OutId) (s : State) : Host.Outcome State Fault Refusal :=
  .next (s.unlessHeld (fun s =>
    let r := s.out o
    if r.told.contains z then
      let s' := s.setOut o { r with told := r.told.erase z }
      if maskHas r.config.zoneMask z then s'.demandOut o else s'
    else s))

/-! ### Claims and rank -/

/-- Link `l`'s claim slot on output `o` written. -/
def State.setClaim (o : OutId) (l : Link) (c : Option Claim) (s : State) : State :=
  s.setOut o { s.out o with claims := (s.out o).claims.set l c }

/-- An OUT CLAIM that passed its checks: the claim in the slot ends REPLACED, the slot is written, winner and wanted
state are formed and acted on (R111). -/
def State.storeClaim (l : Link) (o : OutId) (on : Bool) (minutes : Nat) (s : State) : State :=
  let s1 := if ((s.out o).claims.get l).isSome then s.post (.claimEnd o l .replaced) else s
  (s1.setClaim o l (some { on := on, expiry := secondsAfter s.now (60 * minutes) })).winnerOut o none

/-- The output unit's answer to OUT CLAIM (R111). -/
def answerOutClaim (l : Link) (out state : Byte) (minutes : Half) (s : State) : Answer :=
  match outOf out with
  | none => refuse s .noSuch
  | some o =>
    match twoOf false true state, minutesOf minutes with
    | some on, some k =>
      let s' := s.storeClaim l o on k
      let r := s'.out o
      { state := s', status := if r.winner = some l then .done else .outranked,
        body := [flagByte ((s.out o).claims.get l).isSome, linkByte r.winner, onByte r.wanted,
                 onByte r.outState.isOn] }
    | _, _ => refuse s .badArg

/-- OUT_CLAIM. -/
def execOutClaim (l : Link) (out state : Byte) (minutes : Half) (s : State) : Host.Outcome State Fault Refusal :=
  serveRequest l .outClaim (.outClaim l out state minutes) (answerOutClaim l out state minutes) s

/-- A claim cleared: CLAIM_END posted, then winner and wanted state formed and acted on (R112, R113). -/
def State.endClaim (o : OutId) (l : Link) (cause : ClaimEndCause) (turnCause : Option OutCause) (s : State) : State :=
  ((s.setClaim o l none).post (.claimEnd o l cause)).winnerOut o turnCause

/-- The output unit's answer to OUT DROP (R112). -/
def answerOutDrop (l : Link) (out : Byte) (s : State) : Answer :=
  match outOf out with
  | none => refuse s .noSuch
  | some o =>
    match (s.out o).claims.get l with
    | none => refuse s .nothing
    | some c =>
      let s' := s.endClaim o l .dropped none
      { state := s', status := .done,
        body := [onByte c.on, linkByte (s'.out o).winner, onByte (s'.out o).outState.isOn] }

/-- OUT_DROP. -/
def execOutDrop (l : Link) (out : Byte) (s : State) : Host.Outcome State Fault Refusal :=
  serveRequest l .outDrop (.outDrop l out) (answerOutDrop l out) s

/-- CLAIM_EXPIRY: a claim whose expiry second is reached is cleared; a turn it makes carries EXPIRY (R113, R124), also
where the turn is a safety output's from OFF_HELD, of which R120 says that its entry carries the wanted state's source.
There the rules differ, and EXPIRY is the model's choice, DESIGN CHOICE (notes/assumptions/35.md). -/
def execClaimExpiry (o : OutId) (l : Link) (s : State) : Host.Outcome State Fault Refusal :=
  .next (s.unlessHeld (fun s =>
    match (s.out o).claims.get l with
    | some c => if reached s.now c.expiry then s.endClaim o l .expired (some .expiry) else s
    | none => s))

/-- A LINK RANK that passed: rank, CONFIG, then each output in order (R116). -/
def State.writeRank (l : Link) (rank : Rank) (s : State) : State :=
  (List.finRange 4).foldl (fun s o => s.winnerOut o none) ({ s with rank := rank }.post (.config .rank l))

/-- The output unit's answer to LINK RANK (R116). -/
def answerLinkRank (l : Link) (x y z : Byte) (s : State) : Answer :=
  match rankOf x y z with
  | none => refuse s .badArg
  | some rank => { state := s.writeRank l rank, status := .done, body := rankBytes rank }

/-- LINK_RANK. -/
def execLinkRank (l : Link) (first second third : Byte) (s : State) : Host.Outcome State Fault Refusal :=
  serveRequest l .linkRank (.linkRank l first second third) (answerLinkRank l first second third) s

/-! ### Minimum holds and blink -/

/-- The held state given up for the free state of the same logical state (R119, R122). -/
def OutRecord.endHold (r : OutRecord) : OutRecord :=
  { r with outState := if r.outState.isOn then .onFree else .offFree, holdStart := none }

/-- MIN_HOLD_EXPIRY: at the end of the minimum time the output takes the wanted state as it then stands (R119). -/
def execMinHoldExpiry (o : OutId) (s : State) : Host.Outcome State Fault Refusal :=
  .next (s.unlessHeld (fun s =>
    let r := s.out o
    if r.outState.isHeld && secondDue s.now r.holdEnd then (s.setOut o r.endHold).actOut o (some .minHoldEnd)
    else s))

/-- The other blink phase, running its own length (R123). -/
def OutRecord.nextPhase (nowMs : Nat) (b : Blink) (r : OutRecord) : OutRecord :=
  ({ r with
      blink := some
        { onPhase := !b.onPhase,
          expiry := msAfter nowMs ((if b.onPhase then r.config.blinkOff else r.config.blinkOn) * 100) } }).setPin

/-- BLINK_PHASE_EXPIRY: once the phase's expiry is reached the output takes its other phase (R123). -/
def execBlinkPhaseExpiry (o : OutId) (s : State) : Host.Outcome State Fault Refusal :=
  .next (s.unlessHeld (fun s =>
    match (s.out o).blink with
    | some b => if reachedMs s.nowMs b.expiry then s.setOut o ((s.out o).nextPhase s.nowMs b) else s
    | none => s))

/-! ### OUT SET and OUT GET -/

/-- Step 3 of OUT SET, on the record under its new configuration and with the minimum time its hold had before: a hold
whose minimum time changed ends at once when its new end is not later than now or the new time is 0; any other hold runs
on (R122). -/
def OutRecord.resizeHold (now : Word) (before : Nat) (r : OutRecord) : OutRecord :=
  if r.outState.isHeld && r.minTime != before && (r.minTime = 0 || secondDue now r.holdEnd) then r.endHold else r

/-- Step 6 of OUT SET: a logically ON output in BLINK mode starts a new on phase, STEADY has none; the pin is set
(R121, R123). -/
def OutRecord.restartPin (nowMs : Nat) (r : OutRecord) : OutRecord :=
  (if r.outState.isOn then r.startBlink nowMs else { r with blink := none }).setPin

/-- An OUT SET that passed: configuration, CONFIG, hold resized, demand and wanted state formed and acted on, pin
(R121). -/
def State.writeOut (l : Link) (o : OutId) (c : OutConfig) (s : State) : State :=
  let s1 := (s.setOut o { s.out o with config := c }).post (.config (.output o) l)
  let s2 := (s1.setOut o ((s1.out o).resizeHold s1.now (s.out o).minTime)).demandOut o
  s2.setOut o ((s2.out o).restartPin s2.nowMs)

/-- The output unit's answer to OUT SET (R121). -/
def answerOutSet (l : Link) (out : Byte) (b : OutBlock) (s : State) : Answer :=
  match outOf out with
  | none => refuse s .noSuch
  | some o =>
    match outConfigOf b with
    | none => refuse s .badArg
    | some c =>
      let s' := s.writeOut l o c
      { state := s', status := .done,
        body := [onByte (s'.out o).demand, onByte (s'.out o).wanted, onByte (s'.out o).outState.isOn] }

/-- OUT_SET. -/
def execOutSet (l : Link) (out : Byte) (b : OutBlock) (s : State) : Host.Outcome State Fault Refusal :=
  serveRequest l .outSet (.outSet l out b) (answerOutSet l out b) s

/-- The output unit's answer to OUT GET (R125). -/
def answerOutGet (out : Byte) (s : State) : Answer :=
  match outOf out with
  | none => refuse s .noSuch
  | some o => { state := s, status := .done, body := outBody o s }

/-- OUT_GET. -/
def execOutGet (l : Link) (out : Byte) (s : State) : Host.Outcome State Fault Refusal :=
  serveRequest l .outGet (.outGet l out) (answerOutGet out) s

end Sys2Proof.Machine
end

