-- ==== Sys2Proof/Machine/Startup.lean ====
section
/-!
DEFINITION. The settings store (R172 to R174), full reset (R175, R176), warm-up expiry (R177), restart (R178, R179) and
STATUS (R180).
-/

namespace Sys2Proof.Machine

/-! ### The settings store -/

/-- The settings as they stand in their owning blocks (R172, R173 step 1). -/
def State.snapshot (s : State) : Settings :=
  { lines := mapEach (fun r => r.config) s.lines, zones := mapEach (fun r => r.active) s.zones,
    outs := mapEach (fun r => r.config) s.outs, rank := s.rank, links := s.queue.cursors.map (fun r => r.settings) }

/-- A SAVE accepted: snapshot taken, image invalid, WRITING (R173). -/
def State.startWrite (s : State) : State :=
  { s with store := { s.store with image := { s.store.image with valid := false }, state := .writing s.snapshot } }

/-- The settings store's answer to SAVE (R173). -/
def answerSave (s : State) : Answer :=
  match s.store.state with
  | .idle => { state := s.startWrite, status := .accepted, body := [] }
  | .writing _ => refuse s .busy

/-- SAVE. -/
def execSave (l : Link) (s : State) : Host.Outcome State Fault Refusal :=
  serveRequest l .save (.save l) answerSave s

/-- The image as a completed write leaves it (R173). -/
def Image.written (snapshot : Settings) : Image :=
  { valid := true, content := snapshot, check := Config.checkValue snapshot }

/-- The completion of the write of `snapshot` at the store, with its STORE entry (R173). -/
def State.completeWrite (snapshot : Settings) (ok : Bool) (s : State) : State :=
  let result := if ok then StoreResult.saved else StoreResult.failed
  { s with
    store :=
      { image := if ok then Image.written snapshot else { s.store.image with valid := false },
        state := .idle, lastResult := some result } }.post (.store result)

/-! ### Restart -/

/-- A zone record after restart (R24, R80). -/
def ZoneRecord.restart (now : Word) (warm : Bool) (r : ZoneRecord) : ZoneRecord :=
  { ZoneRecord.fresh r.active with
    epoch := r.epoch
    deadline := if zoneEnabled r.active then startingDeadline now warm r.active else none }

/-- An output record cleared by restart, steps 1 to 3 of R127; the demand is formed next. -/
def OutRecord.cleared (r : OutRecord) : OutRecord :=
  { r with claims := .all none, winner := none, outState := .offFree, holdStart := none, blink := none,
           overridden := false }

/-- An output's restart or start: demand and wanted state formed, acted on from OFF_FREE, and the pin set to the
outcome (R126, R127). Full reset and restart run it for O1 to O4, which R126 states and which is the model's choice at a
restart (notes/assumptions/34.md). -/
def State.startOut (o : OutId) (s : State) : State :=
  let s' := s.demandOut o
  s'.setOut o (s'.out o).setPin

/-- A cause added to a link's restart cause set (R180). -/
def addCause (c : Cause) (set : BitVec 5) : BitVec 5 := set ||| c.bit

/-- The effect of a restart requested by link `l` (R179): zones (R24, R80), lines (R148), the queue with START (R103),
outputs (R127), the cause sets (R180). R127 and R179 give no order among the outputs at a restart; they act O1 to O4,
as R126 has it for full reset: DESIGN CHOICE (notes/assumptions/34.md). Completions in transit are dropped
(notes/assumptions/7.md). -/
def State.restartNow (l : Link) (s : State) : State :=
  let cleared : State :=
    { s with
      handed := []
      zones := mapEach (ZoneRecord.restart s.now s.warm) s.zones
      lines := mapEach (fun r => r.startAfresh s.tick s.warm r.config) s.lines
      queue := s.queue.emptied
      outs := mapEach OutRecord.cleared s.outs
      startup := { s.startup with
        restart := none, causes := s.startup.causes.map (addCause (.restart l)) } }
  (List.finRange 4).foldl (fun s o => s.startOut o) (cleared.post (.start (.restart l) s.startup.source))

/-- A pending restart takes effect when its response has ended and the store is IDLE (R178). -/
def State.restartIfDue (s : State) : State :=
  match s.startup.restart with
  | some p => if p.responseEnded && s.store.state = .idle then s.restartNow p.link else s
  | none => s

/-- RESTART_EFFECT: a pending restart whose two conditions hold takes effect (R178, R179). -/
def execRestartEffect (s : State) : Host.Outcome State Fault Refusal := .next (s.unlessHeld State.restartIfDue)

/-- Start-up control's answer to RESTART: pending for the link (R178). -/
def answerRestart (l : Link) (s : State) : Answer :=
  { state := { s with startup := { s.startup with restart := some { link := l, responseEnded := false } } },
    status := .accepted, body := [] }

/-- RESTART. -/
def execRestart (l : Link) (s : State) : Host.Outcome State Fault Refusal :=
  serveRequest l .restart (.restart l) (answerRestart l) s

/-- STORE_WRITE_COMPLETION: the write in flight completes; a restart that waited only for it takes effect in this event,
after the STORE entry (R173, R178). With no write in flight nothing happens. -/
def execStoreWriteCompletion (readBackMatches : Bool) (s : State) : Host.Outcome State Fault Refusal :=
  .next (s.unlessHeld (fun s =>
    match s.store.state with
    | .writing snapshot => (s.completeWrite snapshot readBackMatches).restartIfDue
    | .idle => s))

/-- The end of link `l`'s response at start-up control: recorded for the restart it belongs to (R178). -/
def Startup.responseEnds (l : Link) (u : Startup) : Startup :=
  match u.restart with
  | some p => if p.link = l then { u with restart := some { p with responseEnded := true } } else u
  | none => u

/-- RESPONSE_END: driver enable released, the link to HUNT, and the end handed to start-up control, where a pending
restart may take effect (R164, R178). On a link that is not SENDING nothing happens. -/
def execResponseEnd (l : Link) (s : State) : Host.Outcome State Fault Refusal :=
  .next (s.unlessHeld (fun s =>
    if (s.link l).rx = .sending then
      ({ s.setLink l { s.link l with rx := .hunt, response := none, driverEnable := false } with
          startup := s.startup.responseEnds l }).restartIfDue
    else s))

/-! ### STATUS -/

/-- Start-up control's answer to STATUS: the report, and the link's cause set emptied (R180). -/
def answerStatus (l : Link) (s : State) : Answer :=
  { state := { s with startup := { s.startup with causes := s.startup.causes.set l 0 } },
    status := .done, body := statusBody l s }

/-- STATUS. -/
def execStatus (l : Link) (s : State) : Host.Outcome State Fault Refusal :=
  serveRequest l .status (.status l) (answerStatus l) s

/-! ### Warm-up expiry -/

/-- The warm-up's end at a line: WARMUP becomes ACQUIRING with its stall timer started (R146). -/
def LineRecord.endWarmup (tick : Nat) (r : LineRecord) : LineRecord :=
  if r.state = .warmup then { r with state := .acquiring, window := none, stallAt := stallFrom tick r.config } else r

/-- The warm-up's end at a zone: a STARTING zone's deadline is armed (R20). -/
def ZoneRecord.endWarmup (now : Word) (r : ZoneRecord) : ZoneRecord :=
  if r.status = .starting then { r with deadline := some (secondsAfter now r.active.staleS) } else r

/-- WARMUP_EXPIRY: once the warm-up's expiry is reached it is marked expired and handed to lines and zones (R177). -/
def execWarmupExpiry (s : State) : Host.Outcome State Fault Refusal :=
  .next (s.unlessHeld (fun s =>
    if timerDue s.tick s.startup.warmupAt then
      { s with
        startup := { s.startup with warmupAt := none }
        lines := mapEach (LineRecord.endWarmup s.tick) s.lines
        zones := mapEach (ZoneRecord.endWarmup s.now) s.zones }
    else s))

/-! ### Full reset -/

/-- The image is accepted: valid, its check value matches, every field in range and the roles consistent (R175, R23). -/
def Image.accepted (i : Image) : Bool :=
  i.valid && i.check == Config.checkValue i.content && settingsAccepted i.content

/-- The settings a full reset loads, with their source (R175). -/
def Image.load (i : Image) : Settings × ConfigSource :=
  if i.accepted then (i.content, .stored) else (settingsDefault, .defaults)

/-- The cause of a full reset: POWER_ON when power rose before it, else RESET_PIN (R176 step 3). -/
def resetCause (powerRose : Bool) : Cause := if powerRose then .powerOn else .resetPin

/-- Every record as the load and steps 1 to 5 of full reset leave it, before START is posted (R176; R23, R102, R126,
R147, R159). The image stands as it was: one refused for its check value or its settings keeps the valid mark that its
last write left, DESIGN CHOICE (R172, R175; notes/assumptions/36.md). -/
def State.loaded (c : Settings) (source : ConfigSource) (cause : Cause) (straps : BitVec 2) (s : State) : State :=
  { tick := 0
    lines := Vector.ofFn (fun n : Fin 16 => LineRecord.fresh s.lines[n].pin c.lines[n])
    handed := []
    zones := mapEach ZoneRecord.fresh c.zones
    queue := { ring := [], newest := 0, cursors := c.links.map (fun x => CursorRecord.fresh x 1) }
    outs := mapEach OutRecord.fresh c.outs
    rank := c.rank
    links := .all LinkRecord.fresh
    store := { image := s.store.image, state := .idle, lastResult := none }
    startup :=
      { warmupAt := some warmupTicks, probeSupply := true, restart := none, causes := .all (0 ||| cause.bit),
        source := source, rate := straps, resetHeld := false }
    pending := s.pending }

/-- A write in flight when full reset is taken stops unfinished, and the image stays invalid (R174). -/
def Store.stopWrite (u : Store) : Store :=
  match u.state with
  | .writing _ => { u with image := { u.image with valid := false }, state := .idle }
  | .idle => u

/-- FULL_RESET: the settings loaded, uptime 0, START posted as seq 1, the warm-up begun, then the outputs O1 to O4 form
their demand and may turn ON (R175, R176, R126). -/
def execFullReset (powerRose : Bool) (straps : BitVec 2) (s : State) : Host.Outcome State Fault Refusal :=
  let s0 := { s with store := s.store.stopWrite }
  let (c, source) := s0.store.image.load
  let cause := resetCause powerRose
  .next ((List.finRange 4).foldl (fun s o => s.startOut o)
    ((s0.loaded c source cause straps).post (.start cause source)))

/-- RESET_PIN_HELD_LOW: a write in flight stops, the probe supply goes off, attention is released, driver enables go
low and no output pin is driven, until the full reset runs (R176, R174). -/
def execResetPinHeldLow (s : State) : Host.Outcome State Fault Refusal :=
  .next
    { s with
      store := s.store.stopWrite
      startup := { s.startup with probeSupply := false, resetHeld := true }
      queue := { s.queue with cursors := s.queue.cursors.map (fun r => { r with attention := false }) }
      links := s.links.map (fun r => { r with driverEnable := false })
      outs := mapEach (fun r => { r with pin := .undriven }) s.outs }

end Sys2Proof.Machine
end

