-- ==== Sys2Proof/Machine/Zones.lean ====
section
/-!
DEFINITION. The zone table's requests, and the expiry of a hold (R12 to R16, R21, R67 to R70, R76).
-/

namespace Sys2Proof.Machine

/-! ### ZONE SET and ZONE GET -/

/-- The role checks of a ZONE SET for zone `z` (R13). -/
def zoneConflict (z : ZoneId) (c : ZoneConfig) (s : State) : Option (LineId × Option ZoneId) :=
  roleConflict (fun n => (s.line n).config.kind) (othersOf z (fun y => (s.zone y).configs)) c

/-- The body of a CONFLICT answer: the line, and the zone or 0 (R13, R165). -/
def conflictBody (n : LineId) (z : Option ZoneId) : List Byte :=
  [lineByte n,
   match z with
   | some z => zoneByte z
   | none => 0]

/-- A ZONE SET that passed R12 and R13: at once on a DISABLED zone (R14), else the pending configuration (R15). -/
def acceptZoneSet (l : Link) (z : ZoneId) (c : ZoneConfig) (s : State) : Answer :=
  let r := s.zone z
  if r.status = .disabled then
    let s' := (s.transfer z l c).inform z r false
    { state := s', status := .done, body := [(s'.zone z).epoch] }
  else
    { state := s.setZone z { r with pendingConfig := some ⟨c, l⟩ }, status := .accepted, body := [r.epoch] }

/-- The zone table's answer to ZONE SET: numbers, values, roles, in this order (R12, R13). -/
def answerZoneSet (l : Link) (zone : Byte) (b : ZoneBlock) (s : State) : Answer :=
  match zoneOf zone with
  | none => refuse s .noSuch
  | some z =>
    if !zoneLinesExist b then refuse s .noSuch
    else
      match zoneConfigOf b with
      | none => refuse s .badArg
      | some c =>
        match zoneConflict z c s with
        | some (n, y) => { state := s, status := .conflict, body := conflictBody n y }
        | none => acceptZoneSet l z c s

/-- ZONE_SET. -/
def execZoneSet (l : Link) (zone : Byte) (b : ZoneBlock) (s : State) : Host.Outcome State Fault Refusal :=
  serveRequest l .zoneSet (.zoneSet l zone b) (answerZoneSet l zone b) s

/-- The selected part of a zone record; none for a selector outside the four (R21). -/
def zonePart (z : ZoneId) (part : Byte) (s : State) : Option (List Byte) :=
  let r := s.zone z
  if part = 0 then some (zoneActiveBody z r)
  else if part = 1 then some (zonePendingBody z r)
  else if part = 2 then some (zoneStateBody s.now z r)
  else if part = 3 then some (zoneEvalBody z r)
  else none

/-- The zone table's answer to ZONE GET (R21). -/
def answerZoneGet (zone part : Byte) (s : State) : Answer :=
  match zoneOf zone with
  | none => refuse s .noSuch
  | some z =>
    match zonePart z part s with
    | none => refuse s .badArg
    | some body => { state := s, status := .done, body := body }

/-- ZONE_GET. -/
def execZoneGet (l : Link) (zone part : Byte) (s : State) : Host.Outcome State Fault Refusal :=
  serveRequest l .zoneGet (.zoneGet l zone part) (answerZoneGet zone part) s

/-! ### Holds -/

/-- A ZONE HOLD that passed R67: the hold written whole, HOLD posted, the effective level formed again (R68). -/
def State.setHold (l : Link) (z : ZoneId) (m : HoldMode) (minutes : Nat) (s : State) : State :=
  let r := s.zone z
  ((s.setZone z { r with hold := some { mode := m, link := l, expiry := secondsAfter s.now (60 * minutes) } }).post
    (.hold z l m minutes)).inform z r false

/-- The zone table's answer to ZONE HOLD (R67, R68). -/
def answerZoneHold (l : Link) (zone mode level : Byte) (minutes : Half) (s : State) : Answer :=
  match zoneOf zone with
  | none => refuse s .noSuch
  | some z =>
    match holdModeOf mode level, minutesOf minutes with
    | some m, some k =>
      if (s.zone z).status = .disabled then refuse s .badArg
      else
        { state := s.setHold l z m k, status := .done,
          body := [flagByte (s.zone z).hold.isSome, linkByte ((s.zone z).hold.map (fun h => h.link))] }
    | _, _ => refuse s .badArg

/-- ZONE_HOLD. -/
def execZoneHold (l : Link) (zone mode level : Byte) (minutes : Half) (s : State) :
    Host.Outcome State Fault Refusal :=
  serveRequest l .zoneHold (.zoneHold l zone mode level minutes) (answerZoneHold l zone mode level minutes) s

/-- A hold ended: made absent, HOLD_END posted, the effective level formed again (R69, R70). -/
def State.endHold (z : ZoneId) (cause : HoldEndCause) (l : Link) (s : State) : State :=
  let r := s.zone z
  ((s.setZone z { r with hold := none }).post (.holdEnd z cause l)).inform z r false

/-- The zone table's answer to ZONE RELEASE (R69). -/
def answerZoneRelease (l : Link) (zone : Byte) (s : State) : Answer :=
  match zoneOf zone with
  | none => refuse s .noSuch
  | some z =>
    match (s.zone z).hold with
    | none => refuse s .nothing
    | some h =>
      { state := s.endHold z .released l, status := .done,
        body := [byteOf h.mode.code, levelByteOpt h.mode.level?, linkByte (some h.link)] }

/-- ZONE_RELEASE. -/
def execZoneRelease (l : Link) (zone : Byte) (s : State) : Host.Outcome State Fault Refusal :=
  serveRequest l .zoneRelease (.zoneRelease l zone) (answerZoneRelease l zone) s

/-- HOLD_EXPIRY: a hold whose expiry second is reached ends, in any status (R70). -/
def execHoldExpiry (z : ZoneId) (s : State) : Host.Outcome State Fault Refusal :=
  .next (s.unlessHeld (fun s =>
    match (s.zone z).hold with
    | some h => if reached s.now h.expiry then s.endHold z .expired h.link else s
    | none => s))

/-! ### Latch -/

/-- The latch cleared: ACK posted and the output unit told (R76). -/
def State.clearLatch (l : Link) (z : ZoneId) (seq : Nat) (s : State) : State :=
  let r := s.zone z
  ((s.setZone z { r with latch := none }).post (.ack z l seq)).inform z r true

/-- The zone table's answer to ZONE ACK (R76). -/
def answerZoneAck (l : Link) (zone : Byte) (seq : Half) (s : State) : Answer :=
  match zoneOf zone with
  | none => refuse s .noSuch
  | some z =>
    if seq = 0 then refuse s .badArg
    else
      match (s.zone z).latch with
      | none => refuse s .nothing
      | some n =>
        if seq.toNat = n then { state := s.clearLatch l z n, status := .done, body := [] }
        else { state := s, status := .stale, body := halfOf n }

/-- ZONE_ACK. -/
def execZoneAck (l : Link) (zone : Byte) (seq : Half) (s : State) : Host.Outcome State Fault Refusal :=
  serveRequest l .zoneAck (.zoneAck l zone seq) (answerZoneAck l zone seq) s

end Sys2Proof.Machine
end

