-- ==== Sys2Proof/Machine/Dispatch.lean ====
section
/-!
DEFINITION. The meaning of each command: one arm per constructor, each a direct call.
-/

namespace Sys2Proof.Machine

def exec (i : Instr) (s : State) : Host.Outcome State Fault Refusal :=
  match i with
  | .status l => Sys2Proof.Machine.execStatus l s
  | .lineGet l line => Sys2Proof.Machine.execLineGet l line s
  | .lineSet l line b => Sys2Proof.Machine.execLineSet l line b s
  | .zoneGet l zone part => Sys2Proof.Machine.execZoneGet l zone part s
  | .zoneSet l zone b => Sys2Proof.Machine.execZoneSet l zone b s
  | .zoneHold l zone mode level minutes => Sys2Proof.Machine.execZoneHold l zone mode level minutes s
  | .zoneRelease l zone => Sys2Proof.Machine.execZoneRelease l zone s
  | .zoneAck l zone seq => Sys2Proof.Machine.execZoneAck l zone seq s
  | .outGet l out => Sys2Proof.Machine.execOutGet l out s
  | .outSet l out b => Sys2Proof.Machine.execOutSet l out b s
  | .outClaim l out state minutes => Sys2Proof.Machine.execOutClaim l out state minutes s
  | .outDrop l out => Sys2Proof.Machine.execOutDrop l out s
  | .eventsFetch l n => Sys2Proof.Machine.execEventsFetch l n s
  | .eventsSeek l target seq => Sys2Proof.Machine.execEventsSeek l target seq s
  | .linkSet l zoneMask kinds minLevel gatherMs => Sys2Proof.Machine.execLinkSet l zoneMask kinds minLevel gatherMs s
  | .linkRank l first second third => Sys2Proof.Machine.execLinkRank l first second third s
  | .save l => Sys2Proof.Machine.execSave l s
  | .restart l => Sys2Proof.Machine.execRestart l s
  | .characterReceived l ch => Sys2Proof.Machine.execCharacterReceived l ch s
  | .gapTimerExpiry l => Sys2Proof.Machine.execGapTimerExpiry l s
  | .responseEnd l => Sys2Proof.Machine.execResponseEnd l s
  | .referenceEdge n => Sys2Proof.Machine.execReferenceEdge n s
  | .nonReferenceEdge n => Sys2Proof.Machine.execNonReferenceEdge n s
  | .stallTimerExpiry n => Sys2Proof.Machine.execStallTimerExpiry n s
  | .evaluationEvent n => Sys2Proof.Machine.execEvaluationEvent n s
  | .staleDeadlineExpiry z => Sys2Proof.Machine.execStaleDeadlineExpiry z s
  | .holdExpiry z => Sys2Proof.Machine.execHoldExpiry z s
  | .zoneEventAtOutput z o => Sys2Proof.Machine.execZoneEventAtOutput z o s
  | .claimExpiry o l => Sys2Proof.Machine.execClaimExpiry o l s
  | .minHoldExpiry o => Sys2Proof.Machine.execMinHoldExpiry o s
  | .blinkPhaseExpiry o => Sys2Proof.Machine.execBlinkPhaseExpiry o s
  | .gatherTimerExpiry l => Sys2Proof.Machine.execGatherTimerExpiry l s
  | .warmupExpiry => Sys2Proof.Machine.execWarmupExpiry s
  | .storeWriteCompletion readBackMatches => Sys2Proof.Machine.execStoreWriteCompletion readBackMatches s
  | .fullReset powerRose straps => Sys2Proof.Machine.execFullReset powerRose straps s
  | .restartEffect => Sys2Proof.Machine.execRestartEffect s
  | .resetPinHeldLow => Sys2Proof.Machine.execResetPinHeldLow s
  | .captureTick levels => Sys2Proof.Machine.execCaptureTick levels s

end Sys2Proof.Machine
end

