-- ==== Sys2Proof/Machine/Step.lean ====
section
/-!
DEFINITION. One step of the block: the command at the front of the queue is taken and run.
-/

namespace Sys2Proof.Machine

/-- The command at the front of the queue runs on the state with the queue's rest; on an empty queue the block idles.
DESIGN CHOICE (notes/assumptions/1.md). A command runs whole, so the entries of one event stand next to each other in the
ring, where R63 and R85 let postings of other blocks fall between them. DESIGN CHOICE (notes/assumptions/33.md). -/
def step (s : State) : Host.Outcome State Fault Refusal :=
  match s.pending with
  | [] => .next s
  | i :: rest => exec i { s with pending := rest }

/-- The command a table word spells put at the front of the queue; the table gives no row any bits
(notes/assumptions/19.md). -/
def State.withFetchWord (s : State) (nbits w : Nat) : State :=
  match decodeTableWord nbits w with
  | some i => { s with pending := i :: s.pending }
  | none => s

end Sys2Proof.Machine
end

