-- ==== Sys2Proof/Safety.lean ====
section
/-!
DEFINITION. The words statements are made in: which parts of the state a command changes, what it posts and answers,
when a request is taken, and the invariants of the records.
-/

namespace Sys2Proof.Machine

/-! ### Frames -/

/-- The parts of the state, one for each field. -/
inductive Part where
  | tick | lines | handed | zones | queue | outs | rank | links | store | startup | pending
  deriving DecidableEq, Repr

/-- Two states hold the same in one part. -/
def Part.Same (s t : State) : Part → Prop
  | .tick => t.tick = s.tick
  | .lines => t.lines = s.lines
  | .handed => t.handed = s.handed
  | .zones => t.zones = s.zones
  | .queue => t.queue = s.queue
  | .outs => t.outs = s.outs
  | .rank => t.rank = s.rank
  | .links => t.links = s.links
  | .store => t.store = s.store
  | .startup => t.startup = s.startup
  | .pending => t.pending = s.pending

/-- Every part but the ones named is the same after as before. -/
def ChangesOnly (ps : List Part) (s t : State) : Prop := ∀ p, p ∉ ps → p.Same s t

/-- Every line record but one is unchanged. -/
def OnlyLine (n : LineId) (s t : State) : Prop := ∀ m, m ≠ n → t.line m = s.line m

/-- Every zone record but one is unchanged. -/
def OnlyZone (z : ZoneId) (s t : State) : Prop := ∀ y, y ≠ z → t.zone y = s.zone y

/-- Every output record but one is unchanged. -/
def OnlyOut (o : OutId) (s t : State) : Prop := ∀ p, p ≠ o → t.out p = s.out p

/-- Every link record but one is unchanged. -/
def OnlyLink (l : Link) (s t : State) : Prop := ∀ k, k ≠ l → t.link k = s.link k

/-- Every cursor record but one, the ring and the last seq given are unchanged. -/
def OnlyCursor (l : Link) (s t : State) : Prop :=
  t.queue.ring = s.queue.ring ∧ t.queue.newest = s.queue.newest ∧ ∀ k, k ≠ l → t.cursor k = s.cursor k

/-! ### What a command posts, tells and answers -/

/-- The event queue is the one before with these entries posted, in this order and next to each other, which for one
event's entries is the model's choice (notes/assumptions/33.md). -/
def Posts (cs : List Content) (s t : State) : Prop := t.queue = cs.foldl (fun q c => q.post s.tick c) s.queue

/-- Every output was given zone `z`'s notice if `told` holds, and no output record changed otherwise (R65). -/
def Tells (z : ZoneId) (told : Prop) (s t : State) : Prop :=
  ∀ o, (told → t.out o = { s.out o with told := (s.out o).told ++ [z] }) ∧ (¬told → t.out o = s.out o)

/-- Link `l` is sending the response to a request of kind code `kind`: `overrun` as it stood before is reported and
cleared, `lagging` and attention are reported as the request left them, and the other links' records are unchanged
(R164). -/
def Replies (l : Link) (kind : Byte) (st : StatusCode) (body : List Byte) (s t : State) : Prop :=
  t.link l =
      { s.link l with
        rx := .sending, buffer := [], gapAt := none, overrun := false, serving := none,
        response := some (responseFrame kind st.code
          (linkFlags (s.link l).overrun (t.cursor l).lagging (t.cursor l).attention) body),
        driverEnable := true } ∧
    OnlyLink l s t

/-- A request is taken by its owning block: the part is not held in reset, and either the link is in HUNT, the body
fits a frame and no restart is pending (a STATUS is taken all the same), or the link is in SERVING with this very
request, which for RESTART is refused when a restart became pending meanwhile (R163, R178; notes/assumptions/6.md). -/
def Takes (l : Link) (i : Instr) (s : State) : Prop :=
  s.startup.resetHeld = false ∧
    (((s.link l).rx = .hunt ∧ i.wellFormed = true ∧ (s.startup.restart = none ∨ i = .status l)) ∨
      ((s.link l).rx = .serving ∧ (s.link l).serving = some i ∧
        ¬(s.startup.restart.isSome = true ∧ i = .restart l)))

/-- Commands run one after the other. -/
def execAll : List Instr → State → Host.Outcome State Fault Refusal
  | [], s => .next s
  | i :: rest, s =>
    match exec i s with
    | .next t => execAll rest t
    | .fault r => .fault r
    | .refused r => .refused r

/-! ### Refused operands -/

/-- A record number outside 1..n (Conventions, Numbering). -/
def outside (n : Nat) (b : Byte) : Prop := b.toNat < 1 ∨ n < b.toNat

/-- A request that names a line, zone or output the part does not have (R12, R21, R67, R69, R76, R111, R112, R121,
R125, R142, R145). -/
def namesNothing : Instr → Prop
  | .lineGet _ n => outside 16 n
  | .lineSet _ n _ => outside 16 n
  | .zoneGet _ z _ => outside 8 z
  | .zoneSet _ z b => outside 8 z ∨ 16 < b.air.toNat ∨ ∃ n ∈ b.surfaces, outside 16 n
  | .zoneHold _ z _ _ _ => outside 8 z
  | .zoneRelease _ z => outside 8 z
  | .zoneAck _ z _ => outside 8 z
  | .outGet _ o => outside 4 o
  | .outSet _ o _ => outside 4 o
  | .outClaim _ o _ _ => outside 4 o
  | .outDrop _ o => outside 4 o
  | _ => False

/-- A line block with a field outside its values or range (R130, R131, R142 step 2). -/
def badLine (b : LineBlock) : Prop :=
  2 < b.kind.toNat ∨ 1 < b.edge.toNat ∨ 1 < b.polarity.toNat ∨ 2 < b.window.toNat ∨ b.stallMs.toNat < 5 ∨
    250 < b.stallMs.toNat ∨ b.rhRef.toNat < 25000 ∨ 1000000 < b.rhRef.toNat ∨ b.rhGain.toInt < -65535 ∨
    65535 < b.rhGain.toInt ∨ b.rhOffset.toInt < -1000 ∨ 1000 < b.rhOffset.toInt ∨ b.tGain.toInt < -65535 ∨
    65535 < b.tGain.toInt ∨ b.tOffset.toInt < -10000 ∨ 10000 < b.tOffset.toInt

/-- A zone block with a value R12 step 2 refuses. -/
def badZone (b : ZoneBlock) : Prop :=
  3 < b.surfaces.length ∨ ¬b.surfaces.Nodup ∨ b.air ∈ b.surfaces ∨ b.watchBelow.toInt < -500 ∨
    2000 < b.watchBelow.toInt ∨ b.warnBelow.toInt < -500 ∨ 2000 < b.warnBelow.toInt ∨ b.wetBelow.toInt < -500 ∨
    2000 < b.wetBelow.toInt ∨ b.hyst.toInt < 0 ∨ 500 < b.hyst.toInt ∨ b.watchBelow.toInt ≤ b.warnBelow.toInt ∨
    b.warnBelow.toInt ≤ b.wetBelow.toInt ∨ b.worsenConfirm.toNat < 1 ∨ 8 < b.worsenConfirm.toNat ∨
    b.improveConfirm.toNat < 1 ∨ 15 < b.improveConfirm.toNat ∨ 15 < b.lead.toNat ∨ b.failLevel.toNat < 1 ∨
    3 < b.failLevel.toNat ∨ b.failLimit.toNat < 1 ∨ 7 < b.failLimit.toNat ∨ b.staleS.toNat < 5 ∨
    600 < b.staleS.toNat ∨ b.surfaceAgeS.toNat < 1 ∨ 600 < b.surfaceAgeS.toNat

/-- An output block with a field outside its values or range (R106, R107, R121 step 2). -/
def badOut (b : OutBlock) : Prop :=
  2 < b.source.toNat ∨ b.trigger.toNat < 1 ∨ 3 < b.trigger.toNat ∨ 1 < b.polarity.toNat ∨ 1 < b.drive.toNat ∨
    1 < b.mode.toNat ∨ 600 < b.minOnS.toNat ∨ 600 < b.minOffS.toNat ∨ b.blinkOn.toNat < 1 ∨ 50 < b.blinkOn.toNat ∨
    b.blinkOff.toNat < 1 ∨ 50 < b.blinkOff.toNat

/-- Mode, level or minutes of a ZONE HOLD outside their values (R67 step 2). -/
def badHold (mode level : Byte) (minutes : Half) : Prop :=
  ¬(mode = 1 ∨ mode = 2) ∨ (mode = 1 ∧ level ≠ 0xFF) ∨ (mode = 2 ∧ (level.toNat < 1 ∨ 3 < level.toNat)) ∨
    minutes.toNat < 1 ∨ 1440 < minutes.toNat

/-- A request with a value out of its range, or refused as one: BAD_ARG where the numbers it names exist (R12, R21, R67,
R76, R91, R93, R95, R111, R116, R121, R142). -/
def badValue (s : State) : Instr → Prop
  | .lineSet _ _ b => badLine b
  | .zoneGet _ _ part => 3 < part.toNat
  | .zoneSet _ _ b => badZone b
  | .zoneHold _ zone mode level minutes =>
    badHold mode level minutes ∨ ∃ z, zoneOf zone = some z ∧ (s.zone z).status = .disabled
  | .zoneAck _ _ seq => seq.toNat = 0
  | .outSet _ _ b => badOut b
  | .outClaim _ _ state minutes => 1 < state.toNat ∨ minutes.toNat < 1 ∨ 1440 < minutes.toNat
  | .eventsFetch _ n => n.toNat < 1 ∨ 4 < n.toNat
  | .eventsSeek _ target seq => 2 < target.toNat ∨ (target.toNat = 2 ∧ seq.toNat = 0)
  | .linkSet _ _ kinds minLevel gatherMs => 2048 ≤ kinds.toNat ∨ 3 < minLevel.toNat ∨ 2000 < gatherMs.toNat
  | .linkRank _ x y z =>
    outside 3 x ∨ outside 3 y ∨ outside 3 z ∨ x = y ∨ x = z ∨ y = z
  | _ => False

/-! ### Settings within their rules, and the defaults -/

/-- The ranges of a line's configuration and calibration (R130, R131). -/
def lineRanges (c : LineConfig) : Prop :=
  5 ≤ c.stallMs ∧ c.stallMs ≤ 250 ∧ 25000 ≤ c.rhRef ∧ c.rhRef ≤ 1000000 ∧ -65535 ≤ c.rhGain ∧ c.rhGain ≤ 65535 ∧
    -1000 ≤ c.rhOffset ∧ c.rhOffset ≤ 1000 ∧ -65535 ≤ c.tGain ∧ c.tGain ≤ 65535 ∧ -10000 ≤ c.tOffset ∧
    c.tOffset ≤ 10000

/-- What R12 and R2 to R4 ask of a zone configuration. -/
def zoneRanges (c : ZoneConfig) : Prop :=
  c.surfaces.length ≤ 3 ∧ c.surfaces.Nodup ∧ (∀ n ∈ c.surfaces, c.air ≠ some n) ∧ -500 ≤ c.watchBelow ∧
    c.watchBelow ≤ 2000 ∧ -500 ≤ c.warnBelow ∧ c.warnBelow ≤ 2000 ∧ -500 ≤ c.wetBelow ∧ c.wetBelow ≤ 2000 ∧
    0 ≤ c.hyst ∧ c.hyst ≤ 500 ∧ c.warnBelow < c.watchBelow ∧ c.wetBelow < c.warnBelow ∧ 1 ≤ c.worsenConfirm ∧
    c.worsenConfirm ≤ 8 ∧ 1 ≤ c.improveConfirm ∧ c.improveConfirm ≤ 15 ∧ c.lead ≤ 15 ∧ c.failLevel ≠ .clear ∧
    1 ≤ c.failLimit ∧ c.failLimit ≤ 7 ∧ 5 ≤ c.staleS ∧ c.staleS ≤ 600 ∧ 1 ≤ c.surfaceAgeS ∧ c.surfaceAgeS ≤ 600

/-- The ranges of an output's configuration (R106, R107). -/
def outRanges (c : OutConfig) : Prop :=
  c.trigger ≠ .clear ∧ c.minOnS ≤ 600 ∧ c.minOffS ≤ 600 ∧ 1 ≤ c.blinkOn ∧ c.blinkOn ≤ 50 ∧ 1 ≤ c.blinkOff ∧
    c.blinkOff ≤ 50

/-- What R175 and R23 ask of the settings of an image: every field in its range, a rank naming each link once, and the
zone configurations past the checks of R13 against each other and against the line kinds of the same image. -/
def WithinTheRules (c : Settings) : Prop :=
  (∀ n : Fin 16, lineRanges c.lines[n]) ∧ (∀ z : Fin 8, zoneRanges c.zones[z]) ∧ (∀ o : Fin 4, outRanges c.outs[o]) ∧
    (c.rank.first ≠ c.rank.second ∧ c.rank.first ≠ c.rank.third ∧ c.rank.second ≠ c.rank.third) ∧
    (∀ l, (c.links.get l).gatherMs ≤ 2000) ∧
    (∀ (z : Fin 8) (n : Fin 16), c.zones[z].air = some n → c.lines[n].kind = .air) ∧
    (∀ (z : Fin 8) (n : Fin 16), n ∈ c.zones[z].surfaces → c.lines[n].kind = .surface) ∧
    ∀ (z y : Fin 8) (n : Fin 16), z ≠ y → c.zones[z].air = some n → c.zones[y].air ≠ some n ∧ n ∉ c.zones[y].surfaces

/-- The defaults of every block (R2 to R4, R87, R88, R106, R107, R115, R130, R131). -/
def AreDefaults (c : Settings) : Prop :=
  (∀ n : Fin 16, c.lines[n] =
    { kind := .off, edge := .rising, polarity := .normal, window := .w64, stallMs := 20, rhRef := 100000,
      rhGain := 1966, rhOffset := 0, tGain := 20000, tOffset := -5000 }) ∧
  (∀ z : Fin 8, c.zones[z] =
    { air := none, surfaces := [], watchBelow := 300, warnBelow := 100, wetBelow := 0, hyst := 50,
      worsenConfirm := 2, improveConfirm := 4, lead := 4, failLevel := .warn, failLimit := 3, staleS := 30,
      surfaceAgeS := 60 }) ∧
  (∀ o : Fin 4, c.outs[o] =
    { source := .off, zoneMask := 0, trigger := .warn, safety := false, minOnS := 0, minOffS := 0,
      polarity := .activeHigh, drive := .pushPull, mode := .steady, blinkOn := 5, blinkOff := 5 }) ∧
  (c.rank.first = .a ∧ c.rank.second = .b ∧ c.rank.third = .c) ∧
  ∀ l, (∀ z : ZoneId, (c.links.get l).filter.zoneMask.getLsbD z.val = true) ∧
    (∀ k : Fin 11, (c.links.get l).filter.kinds.getLsbD k.val = true) ∧
    (c.links.get l).filter.minLevel = .clear ∧ (c.links.get l).gatherMs = 200

/-! ### Attention, as the rules of chapter 5 give it -/

/-- R84: START entries, and LEVEL entries to WET or to UNKNOWN. -/
def Urgent : Content → Prop
  | .start _ _ => True
  | .level _ _ new _ _ _ _ _ _ => new = .level .wet ∨ new = .unknown
  | _ => False

/-- R99: what `lagging` becomes from its value before a change of backlog and the new backlog. -/
def LaggingAfter (old : Bool) (backlog : Nat) (new : Bool) : Prop :=
  (48 ≤ backlog → new = true) ∧ (backlog < 32 → new = false) ∧ (32 ≤ backlog → backlog < 48 → new = old)

/-- R96 to R98: attention and gather timer of a cursor record after an event at it, from what they were before it and
the record's new backlog, `lagging` and cursor. The timer runs for `gather_ms`, 8000 ticks each ms, and is not
restarted. -/
def AttentionAfter (tick : Nat) (ring : List Entry) (asserted : Bool) (timer : Option Nat) (r : CursorRecord) : Prop :=
  let hurried := 16 ≤ r.backlog ∨ r.lagging = true ∨
    ∃ e ∈ fromCursor ring r.cursor, Urgent e.content ∧ matchesFilter r.settings.filter e.content = true
  (r.backlog = 0 → r.attention = false ∧ r.gatherAt = none) ∧
    (1 ≤ r.backlog → asserted = true ∨ hurried → r.attention = true ∧ r.gatherAt = none) ∧
    (1 ≤ r.backlog → asserted = false → ¬hurried →
      (∀ due, timer = some due → r.attention = false ∧ r.gatherAt = some due) ∧
      (timer = none → r.settings.gatherMs = 0 → r.attention = true ∧ r.gatherAt = none) ∧
      (timer = none → 1 ≤ r.settings.gatherMs →
        r.attention = false ∧ r.gatherAt = some (tick + r.settings.gatherMs * 8000)))

/-! ### The fields of a body, by offset -/

/-- The value of bytes, lowest first (R158). -/
def littleEndian : List Byte → Nat
  | [] => 0
  | b :: bs => b.toNat + 256 * littleEndian bs

/-- A field of a body: the offset of its first byte, its width in bytes, and its value. -/
structure Field where
  offset : Nat
  width : Nat
  value : Int
  deriving DecidableEq, Repr

/-- The field's bytes in the body are its value, little-endian and in two's complement (R158). -/
def Field.In (f : Field) (body : List Byte) : Prop :=
  f.offset + f.width ≤ body.length ∧
    (littleEndian ((body.drop f.offset).take f.width) : Int) = f.value % 256 ^ f.width

/-- Every one of these fields stands in the body. -/
def HasFields (body : List Byte) (fs : List Field) : Prop := ∀ f ∈ fs, f.In body

/-- An enumerated value's code is its place, from 0, in the order R168 lists the values in. -/
def codeIn {α : Type} [DecidableEq α] (order : List α) (x : α) : Int := order.idxOf x

/-- A flag or presence byte (R168). -/
def flagCode (b : Bool) : Int := if b then 1 else 0

/-- A link's code, 0 for none (R168). -/
def linkCodeOf (l : Option Link) : Int := codeIn [none, some .a, some .b, some .c] l

/-- A level's code, 255 for none (R168). -/
def levelCodeOf : Option Level → Int
  | some x => codeIn [.clear, .watch, .warn, .wet] x
  | none => 255

/-- A line's number, 0 for none (R169). -/
def lineNumber : Option LineId → Int
  | some n => n.val + 1
  | none => 0

/-- Bit k−1 for every zone Zk of which `p` holds (R168). -/
def maskOf (p : ZoneId → Bool) : Int := ((List.finRange 8).map (fun z => if p z then (2 : Int) ^ z.val else 0)).sum

/-- Uptime seconds left before `t`, and 0 from then on (notes/assumptions/29.md). -/
def leftBefore (now t : Word) : Int := if (now - t).toNat < 2 ^ 31 then 0 else (t - now).toNat

/-- Minutes left before `t`, rounded up to the next whole minute (R66, R125). -/
def minutesBefore (now t : Word) : Int := (leftBefore now t + 59) / 60

/-- Ms from `t` to `now`, across the wrap of uptime (R46). -/
def elapsedMs (now t : Nat) : Nat := if t ≤ now then now - t else now + 4294967296000 - t

/-- The line block, 21 bytes from offset `a` (R169). -/
def lineBlockFields (a : Nat) (c : LineConfig) : List Field :=
  [⟨a, 1, codeIn [.off, .air, .surface] c.kind⟩, ⟨a + 1, 1, codeIn [.rising, .falling] c.edge⟩,
   ⟨a + 2, 1, codeIn [.normal, .inverted] c.polarity⟩, ⟨a + 3, 1, codeIn [.w16, .w64, .w256] c.window⟩,
   ⟨a + 4, 1, c.stallMs⟩, ⟨a + 5, 4, c.rhRef⟩, ⟨a + 9, 4, c.rhGain⟩, ⟨a + 13, 2, c.rhOffset⟩, ⟨a + 15, 4, c.tGain⟩,
   ⟨a + 19, 2, c.tOffset⟩]

/-- The zone block, 19 + n bytes from offset `a` for n surface lines (R169). -/
def zoneBlockFields (a : Nat) (c : ZoneConfig) : List Field :=
  let b := a + 2 + c.surfaces.length
  [⟨a, 1, lineNumber c.air⟩, ⟨a + 1, 1, c.surfaces.length⟩] ++
    c.surfaces.mapIdx (fun k n => ⟨a + 2 + k, 1, lineNumber (some n)⟩) ++
    [⟨b, 2, c.watchBelow⟩, ⟨b + 2, 2, c.warnBelow⟩, ⟨b + 4, 2, c.wetBelow⟩, ⟨b + 6, 2, c.hyst⟩,
     ⟨b + 8, 1, c.worsenConfirm⟩, ⟨b + 9, 1, c.improveConfirm⟩, ⟨b + 10, 1, c.lead⟩,
     ⟨b + 11, 1, levelCodeOf (some c.failLevel)⟩, ⟨b + 12, 1, c.failLimit⟩, ⟨b + 13, 2, c.staleS⟩,
     ⟨b + 15, 2, c.surfaceAgeS⟩]

/-- The output block, 13 bytes from offset `a` (R169). -/
def outBlockFields (a : Nat) (c : OutConfig) : List Field :=
  [⟨a, 1, codeIn [.off, .demand, .latch] c.source⟩, ⟨a + 1, 1, c.zoneMask.toNat⟩,
   ⟨a + 2, 1, levelCodeOf (some c.trigger)⟩, ⟨a + 3, 1, flagCode c.safety⟩,
   ⟨a + 4, 1, codeIn [.activeHigh, .activeLow] c.polarity⟩, ⟨a + 5, 1, codeIn [.pushPull, .openDrain] c.drive⟩,
   ⟨a + 6, 1, codeIn [.steady, .blink] c.mode⟩, ⟨a + 7, 2, c.minOnS⟩, ⟨a + 9, 2, c.minOffS⟩, ⟨a + 11, 1, c.blinkOn⟩,
   ⟨a + 12, 1, c.blinkOff⟩]

/-- A claim slot in OUT GET, 4 bytes from offset `a` (R171). -/
def claimFields (a : Nat) (now : Word) : Option Claim → List Field
  | some c => [⟨a, 1, 1⟩, ⟨a + 1, 1, flagCode c.on⟩, ⟨a + 2, 2, minutesBefore now c.expiry⟩]
  | none => [⟨a, 4, 0⟩]

/-- The body of LINE GET, 45 bytes (R145, R171). -/
def lineGetFields (n : LineId) (s : State) : List Field :=
  let r := s.line n
  let pendings (p : ZoneConfig → Bool) := maskOf (fun z => (s.zone z).pendingConfig.any (fun c => p c.config))
  [⟨0, 1, lineNumber (some n)⟩] ++ lineBlockFields 1 r.config ++
    [⟨22, 1, codeIn [.off, .warmup, .acquiring, .stalled] r.state⟩, ⟨23, 1, flagCode r.window.isSome⟩,
     ⟨24, 1, (r.window.map (fun w => w.periods)).getD 0⟩,
     ⟨25, 1, codeIn [.none, .good, .saturated, .range] r.lastQuality⟩, ⟨26, 1, flagCode r.fault⟩,
     ⟨27, 1, flagCode r.lastRaw.isSome⟩, ⟨28, 4, (r.lastRaw.map (fun x => x.p)).getD 0⟩,
     ⟨32, 2, (r.lastRaw.map (fun x => x.d)).getD 0⟩, ⟨34, 1, flagCode r.lastGood.isSome⟩,
     ⟨35, 2, if r.config.kind = .surface then 0 else (r.lastGood.map (fun g => g.reading.rh)).getD 0⟩,
     ⟨37, 2, (r.lastGood.map (fun g => g.reading.temp)).getD 0⟩,
     ⟨39, 2, (r.lastGood.map (fun g => min 65535 (elapsedMs s.nowMs g.time / 1000))).getD 0⟩,
     ⟨41, 1, maskOf (fun z => (s.zone z).active.air = some n)⟩, ⟨42, 1, pendings (fun c => c.air = some n)⟩,
     ⟨43, 1, maskOf (fun z => n ∈ (s.zone z).active.surfaces)⟩, ⟨44, 1, pendings (fun c => n ∈ c.surfaces)⟩]

/-- ZONE GET, part ACTIVE, 21 + n bytes (R21, R171). -/
def zoneActiveFields (z : ZoneId) (r : ZoneRecord) : List Field :=
  [⟨0, 1, z.val + 1⟩, ⟨1, 1, r.epoch.toNat⟩] ++ zoneBlockFields 2 r.active

/-- ZONE GET, part PENDING, 4 bytes, or 23 + n with a pending configuration (R21, R171). -/
def zonePendingFields (z : ZoneId) (r : ZoneRecord) : List Field :=
  [⟨0, 1, z.val + 1⟩, ⟨1, 1, r.epoch.toNat⟩, ⟨2, 1, flagCode r.pendingConfig.isSome⟩,
   ⟨3, 1, linkCodeOf (r.pendingConfig.map (fun p => p.writer))⟩] ++
    (match r.pendingConfig with
      | some p => zoneBlockFields 4 p.config
      | none => [])

/-- ZONE GET, part STATE, 18 bytes (R21, R171). -/
def zoneStateFields (now : Word) (z : ZoneId) (r : ZoneRecord) : List Field :=
  [⟨0, 1, z.val + 1⟩, ⟨1, 1, r.epoch.toNat⟩, ⟨2, 1, codeIn [.disabled, .starting, .active, .unknown] r.status⟩,
   ⟨3, 1, codeIn [none, some .stale, some .airBad, some .noSurface] r.unknownReason⟩,
   ⟨4, 1, levelCodeOf (some r.level)⟩, ⟨5, 1, levelCodeOf (r.pending.map (fun p => p.level))⟩,
   ⟨6, 1, (r.pending.map (fun p => p.count)).getD 0⟩, ⟨7, 1, r.failCount⟩,
   ⟨8, 2, (r.deadline.map (leftBefore now)).getD 0⟩, ⟨10, 1, levelCodeOf r.effective⟩] ++
    (match r.hold with
      | some h =>
        (match h.mode with
          | .suppress => [⟨11, 1, 1⟩, ⟨12, 1, 255⟩]
          | .assert x => [⟨11, 1, 2⟩, ⟨12, 1, levelCodeOf (some x)⟩]) ++
          [⟨13, 1, linkCodeOf (some h.link)⟩, ⟨14, 2, minutesBefore now h.expiry⟩]
      | none => [⟨11, 1, 0⟩, ⟨12, 1, 255⟩, ⟨13, 1, 0⟩, ⟨14, 2, 0⟩]) ++
    [⟨16, 2, r.latch.getD 0⟩]

/-- ZONE GET, part EVAL, 33 bytes (R21, R171). -/
def zoneEvalFields (z : ZoneId) (r : ZoneRecord) : List Field :=
  [⟨0, 1, z.val + 1⟩, ⟨1, 1, r.epoch.toNat⟩, ⟨2, 1, r.history.length⟩, ⟨3, 2, r.history.getD 0 0⟩,
   ⟨5, 2, r.history.getD 1 0⟩, ⟨7, 2, r.history.getD 2 0⟩, ⟨9, 2, r.history.getD 3 0⟩] ++
    (match r.lastEval with
      | some e =>
        [⟨11, 1, 1⟩, ⟨12, 4, e.time.toNat⟩, ⟨16, 2, e.airT⟩, ⟨18, 2, e.rh⟩, ⟨20, 2, e.e⟩, ⟨22, 2, e.td⟩,
         ⟨24, 1, flagCode e.dpFloor + 2 * flagCode e.saturatedInput + 4 * flagCode e.agedSurface⟩, ⟨25, 2, e.m⟩,
         ⟨27, 1, flagCode e.p.isSome⟩, ⟨28, 2, e.p.getD 0⟩, ⟨30, 2, e.g⟩, ⟨32, 1, lineNumber (some e.coldest)⟩]
      | none => [⟨11, 22, 0⟩])

/-- The body of OUT GET, 38 bytes (R125, R171). -/
def outGetFields (o : OutId) (s : State) : List Field :=
  let r := s.out o
  let on := decide (r.outState = .onHeld ∨ r.outState = .onFree)
  let held := decide (r.outState = .onHeld ∨ r.outState = .offHeld)
  let minimum :=
    if r.outState = .onHeld then r.config.minOnS else if r.outState = .offHeld then r.config.minOffS else 0
  let onPhase := r.blink.any (fun b => b.onPhase)
  [⟨0, 1, o.val + 1⟩] ++ outBlockFields 1 r.config ++ [⟨14, 1, flagCode r.demand⟩] ++
    claimFields 15 s.now r.claims.a ++ claimFields 19 s.now r.claims.b ++ claimFields 23 s.now r.claims.c ++
    [⟨27, 1, linkCodeOf r.winner⟩, ⟨28, 1, linkCodeOf (some s.rank.first)⟩, ⟨29, 1, linkCodeOf (some s.rank.second)⟩,
     ⟨30, 1, linkCodeOf (some s.rank.third)⟩, ⟨31, 1, flagCode r.wanted⟩, ⟨32, 1, flagCode r.overridden⟩,
     ⟨33, 1, codeIn [.offFree, .offHeld, .onHeld, .onFree] r.outState⟩,
     ⟨34, 2, (r.holdStart.map (fun t => leftBefore s.now (t + BitVec.ofNat 32 minimum))).getD 0⟩,
     ⟨36, 1, flagCode (held && r.wanted != on)⟩,
     ⟨37, 1, flagCode (on && (r.config.mode = .steady || onPhase))⟩]

/-- The body of STATUS on link `l`, 18 bytes (R104, R169, R180). -/
def statusFields (l : Link) (s : State) : List Field :=
  [⟨0, 1, 0x3A⟩, ⟨1, 1, 1⟩, ⟨2, 4, s.now.toNat⟩, ⟨6, 1, flagCode s.startup.warmupAt.isSome⟩,
   ⟨7, 1, if s.store.state = .idle then 0 else 1⟩,
   ⟨8, 1, codeIn [none, some .saved, some .failed] s.store.lastResult⟩, ⟨9, 1, (s.startup.causes.get l).toNat⟩,
   ⟨10, 2, (s.link l).discarded⟩, ⟨12, 1, (s.cursor l).backlog⟩, ⟨13, 1, (s.cursor l).missed⟩,
   ⟨14, 2, (s.queue.ring.head?.map (fun e => e.seq)).getD s.queue.newest⟩, ⟨16, 2, s.queue.newest⟩]

/-- An entry's 14 bytes: seq, time, kind, subject, operands a, b, x and y (R82, R83, R168, R170). -/
def entryFields (e : Entry) : List Field :=
  let row (kind subject a b x y : Int) : List Field :=
    [⟨0, 2, e.seq⟩, ⟨2, 4, e.time.toNat⟩, ⟨6, 1, kind⟩, ⟨7, 1, subject⟩, ⟨8, 1, a⟩, ⟨9, 1, b⟩, ⟨10, 2, x⟩, ⟨12, 2, y⟩]
  let condition : Condition → Int
    | .level x => levelCodeOf (some x)
    | .unknown => 4
    | .starting => 5
  match e.content with
  | .start cause source =>
    row 1 0 (codeIn [.powerOn, .resetPin, .restart .a, .restart .b, .restart .c] cause + 1)
      (codeIn [.defaults, .stored] source) 0 0
  | .level z old new held projected floor reason g td =>
    row 2 (z.val + 1) (16 * condition old + condition new)
      (flagCode held + 2 * flagCode projected + 4 * flagCode floor +
        16 * codeIn [none, some .stale, some .airBad, some .noSurface] reason) g td
  | .probeFault n f => row 3 (n.val + 1) (codeIn [.stalled, .range] f + 1) 0 0 0
  | .probeOk n => row 4 (n.val + 1) 0 0 0 0
  | .config (.zone z epoch) l => row 5 (z.val + 1) 1 (linkCodeOf (some l)) epoch.toNat 0
  | .config (.line n) l => row 5 (n.val + 1) 2 (linkCodeOf (some l)) 0 0
  | .config (.output o) l => row 5 (o.val + 1) 3 (linkCodeOf (some l)) 0 0
  | .config (.link k) l => row 5 (linkCodeOf (some k)) 4 (linkCodeOf (some l)) 0 0
  | .config .rank l => row 5 0 5 (linkCodeOf (some l)) 0 0
  | .hold z l .suppress minutes => row 6 (z.val + 1) (linkCodeOf (some l)) (16 * 1 + 15) minutes 0
  | .hold z l (.assert x) minutes =>
    row 6 (z.val + 1) (linkCodeOf (some l)) (16 * 2 + levelCodeOf (some x)) minutes 0
  | .holdEnd z cause l => row 7 (z.val + 1) (codeIn [.released, .expired] cause + 1) (linkCodeOf (some l)) 0 0
  | .ack z l seq => row 8 (z.val + 1) (linkCodeOf (some l)) 0 seq 0
  | .output o old new cause =>
    row 9 (o.val + 1) (16 * flagCode old + flagCode new)
      (match cause with
        | .auto => 16 * 1
        | .claim l => 16 * 2 + linkCodeOf (some l)
        | .safety => 16 * 3
        | .minHoldEnd => 16 * 4
        | .expiry => 16 * 5) 0 0
  | .claimEnd o l cause =>
    row 10 (o.val + 1) (linkCodeOf (some l)) (codeIn [.dropped, .expired, .replaced] cause + 1) 0 0
  | .store result => row 11 0 (codeIn [.saved, .failed] result + 1) 0 0 0

/-! ### Events -/

/-- The reference edge of line `n` waits at the latest tick: the level left high under RISING, low under FALLING
(R130, R133). -/
def ReferenceEdgeWaits (n : LineId) (s : State) : Prop :=
  (s.line n).sampled = some (!(s.line n).pin) ∧ ((s.line n).config.edge = .rising ↔ (s.line n).pin = true)

/-- The non-reference edge of line `n` waits at the latest tick (R133). -/
def OtherEdgeWaits (n : LineId) (s : State) : Prop :=
  (s.line n).sampled = some (!(s.line n).pin) ∧ ((s.line n).config.edge = .rising ↔ (s.line n).pin = false)

/-- No edge of line `n` waits: the level of the latest tick is the sampled one, or none has been sampled (R132). -/
def NoEdgeWaits (n : LineId) (s : State) : Prop :=
  (s.line n).sampled = none ∨ (s.line n).sampled = some (s.line n).pin

/-- The zone's record and the entries posted after stage 1 of an evaluation: a pending configuration is transferred
(R42, R43). -/
def stageOne (z : ZoneId) (s : State) : ZoneRecord × List Content :=
  match (s.zone z).pendingConfig with
  | none => (s.zone z, [])
  | some p =>
    let r := (s.zone z).transfer s.now s.warm p.config
    (r, [.config (.zone z r.epoch) p.writer])

/-- A completion `c` of line `n` is the next that the zone table takes: none of the line was handed over before it and
not taken (R138). -/
def NextCompletion (n : LineId) (c : Completion) (rest : List Completion) (s : State) : Prop :=
  ∃ before after, s.handed = before ++ c :: after ∧ rest = before ++ after ∧ c.line = n ∧
    ∀ d ∈ before, d.line ≠ n

/-- Line `n` is the air line of zone `z`'s active configuration and of no other's, and the zone is not DISABLED: its
completions are the zone's evaluation events (R41). -/
def Evaluates (z : ZoneId) (n : LineId) (s : State) : Prop :=
  (s.zone z).active.air = some n ∧ (∀ y, y ≠ z → (s.zone y).active.air ≠ some n) ∧ (s.zone z).status ≠ .disabled

/-- The entry of an output's turn, if it turned (R124). -/
def turnEntry (o : OutId) (cause : OutCause) (turn : Option Bool) : List Content :=
  match turn with
  | none => []
  | some on => [.output o (!on) on cause]

/-! ### Invariants -/

/-- Neighbours in the ring carry consecutive seqs (R81). -/
def Consecutive : List Entry → Prop
  | [] => True
  | [_] => True
  | e :: f :: rest => f.seq = nextSeq e.seq ∧ Consecutive (f :: rest)

/-- The ring: 1 to 64 entries, seqs consecutive in 1..65535, the last one the newest (R81). -/
def Queue.RingOk (q : Queue) : Prop :=
  1 ≤ q.ring.length ∧ q.ring.length ≤ 64 ∧ (∀ e ∈ q.ring, 1 ≤ e.seq ∧ e.seq ≤ 65535) ∧ Consecutive q.ring ∧
    (q.ring.getLast?.map (fun e => e.seq)) = some q.newest

/-- A cursor record against the ring: the cursor on a held entry or one past the newest, the backlog the number of
matching entries from it on, `missed` within its range, `lagging` set at 48 or more and clear below 32 (R86, R87, R90,
R99). -/
def CursorRecord.CountOk (q : Queue) (r : CursorRecord) : Prop :=
  ((∃ e ∈ q.ring, e.seq = r.cursor) ∨ r.cursor = nextSeq q.newest) ∧
    r.backlog = countMatching q.ring r.settings.filter r.cursor ∧ r.missed ≤ 255 ∧ r.settings.gatherMs ≤ 2000 ∧
    (48 ≤ r.backlog → r.lagging = true) ∧ (r.backlog < 32 → r.lagging = false)

/-- Attention and gather timer: released and stopped at a backlog of 0, the timer stopped while attention is asserted,
and one of the two at work while there is a backlog; asserted where R97 asks for it (R96 to R99). -/
def CursorRecord.AttentionOk (q : Queue) (r : CursorRecord) : Prop :=
  (r.backlog = 0 → r.attention = false ∧ r.gatherAt = none) ∧ (r.attention = true → r.gatherAt = none) ∧
    (1 ≤ r.backlog → r.attention = true ∨ r.gatherAt.isSome = true) ∧
    (16 ≤ r.backlog ∨ r.lagging = true ∨ urgentAhead q.ring r = true → r.attention = true)

/-- The event queue between whole events (R81 to R99). Attention is released while the reset pin is held (R176). -/
def State.QueueOk (s : State) : Prop :=
  s.queue.RingOk ∧ ∀ l, (s.cursor l).CountOk s.queue ∧
    (s.startup.resetHeld = false → (s.cursor l).AttentionOk s.queue)

/-- The rules of R13 between two configurations of different zones: an air line of one is named by the other in no
role. -/
def rolesApart (c d : ZoneConfig) : Prop := ∀ n, c.air = some n → d.air ≠ some n ∧ n ∉ d.surfaces

/-- The two rules R13 keeps true, over active and pending configurations. -/
def State.RolesOk (s : State) : Prop :=
  (∀ z y, z ≠ y → ∀ c ∈ (s.zone z).configs, ∀ d ∈ (s.zone y).configs, rolesApart c d) ∧
    ∀ z, ∀ c ∈ (s.zone z).configs,
      (∀ n, c.air = some n → (s.line n).config.kind = .air) ∧ (∀ n ∈ c.surfaces, (s.line n).config.kind = .surface)

/-- A zone record between whole events: DISABLED exactly when its configuration is not enabled, what is present in which
status, and no count beyond its range (R1, R5 to R10, R44, R50). -/
def ZoneRecord.Ok (warm : Bool) (r : ZoneRecord) : Prop :=
  (r.status = .disabled ↔ zoneEnabled r.active = false) ∧ (∀ c ∈ r.configs, zoneInRange c = true) ∧
    (r.status = .disabled → r.pendingConfig = none ∧ r.deadline = none) ∧
    (r.status = .starting → r.deadline.isSome = !warm) ∧ (r.status = .active → r.deadline.isSome = true) ∧
    (r.unknownReason.isSome = true ↔ r.status = .unknown) ∧
    (r.status ≠ .active → r.history = [] ∧ r.pending = none) ∧ r.history.length ≤ 4 ∧ r.failCount ≤ 7 ∧
    ∀ p, r.pending = some p →
      p.level ≠ r.level ∧ 1 ≤ p.count ∧ p.count < confirmCount r.active r.level p.level

/-- Every zone record is in order. -/
def State.ZonesOk (s : State) : Prop := ∀ z, (s.zone z).Ok s.warm

/-- A last good reading lies in the valid range of its line's kind (R132, R156). -/
def readingOk (kind : LineKind) (x : Reading) : Prop :=
  match kind with
  | .surface => -1000 ≤ x.temp ∧ x.temp ≤ 6000
  | _ => 0 ≤ x.rh ∧ x.rh ≤ 1000 ∧ 0 ≤ x.temp ∧ x.temp ≤ 6000

/-- A line record between whole events: state by kind and warm-up, stall timer and window by state, accumulators in
their relations, and the last good reading in range (R130 to R135, R146). -/
def LineRecord.Ok (tick : Nat) (warm : Bool) (r : LineRecord) : Prop :=
  lineInRange r.config = true ∧ (r.state = .off ↔ r.config.kind = .off) ∧
    (r.config.kind ≠ .off → (r.state = .warmup ↔ warm = true)) ∧
    (r.stallAt.isSome = true ↔ r.state = .acquiring) ∧
    (∀ w, r.window = some w →
      r.state = .acquiring ∧ w.periods < r.config.window.periods ∧ w.active ≤ w.span ∧ w.refTick ≤ tick ∧
        w.runActive ≤ tick - w.refTick) ∧
    (r.lastQuality = .none → r.lastRaw = none ∧ r.lastGood = none) ∧
    (r.lastQuality = .good ∨ r.lastQuality = .saturated → r.lastGood.isSome = true) ∧
    ∀ g, r.lastGood = some g → readingOk r.config.kind g.reading

/-- Every line record is in order. -/
def State.LinesOk (s : State) : Prop := ∀ n, (s.line n).Ok s.tick s.warm

/-- An output record between whole events: winner and wanted state formed from what stands, hold and blink phase present
exactly in their states, no free state against the wanted state, and a safety output ON whenever ON is wanted, so
whenever its demand is ON (R110, R117 to R120, R123). -/
def OutRecord.Ok (rank : Rank) (held : Bool) (r : OutRecord) : Prop :=
  outInRange r.config = true ∧ r.winner = winnerOf rank r.claims ∧ (r.wanted, r.overridden) = r.wantedOf ∧
    (r.holdStart.isSome = true ↔ r.outState.isHeld = true) ∧
    (r.blink.isSome = true ↔ r.outState.isOn = true ∧ r.config.mode = .blink) ∧
    (r.outState = .offFree → r.wanted = false) ∧ (r.outState = .onFree → r.wanted = true) ∧
    (r.config.safety = true → r.wanted = true → r.outState.isOn = true) ∧
    (r.config.safety = true → r.demand = true → r.outState.isOn = true) ∧
    (held = false → r.pin = pinLevel r.config r.pinActive)

/-- Every output record is in order, and the rank names each link once (R115). -/
def State.OutsOk (s : State) : Prop := rankComplete s.rank = true ∧ ∀ o, (s.out o).Ok s.rank s.startup.resetHeld

/-- A link record between whole events: in BODY the buffer holds a length of 1 to 61 and at most that many bytes after
it, elsewhere it is absent; gap timer, request and response present exactly in their states (R159, R160, R164). -/
def LinkRecord.Ok (held : Bool) (r : LinkRecord) : Prop :=
  (r.rx = .body →
      ∃ len bytes, r.buffer = len :: bytes ∧ 1 ≤ len.toNat ∧ len.toNat ≤ 61 ∧ bytes.length ≤ len.toNat) ∧
    (r.rx ≠ .body → r.buffer = []) ∧
    (r.gapAt.isSome = true ↔ r.rx = .length ∨ r.rx = .body ∨ r.rx = .drain) ∧
    (r.serving.isSome = true ↔ r.rx = .serving) ∧ (r.response.isSome = true ↔ r.rx = .sending) ∧
    (held = false → (r.driverEnable = true ↔ r.rx = .sending)) ∧ r.discarded ≤ 65535

/-- Every link record is in order. -/
def State.LinksOk (s : State) : Prop := ∀ l, (s.link l).Ok s.startup.resetHeld

/-- The store and start-up control between whole events: the image invalid while it is written (R172), the probe supply
on unless the reset pin is held (R176), and no restart left pending whose two conditions hold (R178). -/
def State.StartupOk (s : State) : Prop :=
  (s.store.state ≠ .idle → s.store.image.valid = false) ∧ s.startup.probeSupply = !s.startup.resetHeld ∧
    (s.startup.resetHeld = false →
      ∀ p, s.startup.restart = some p → ¬(p.responseEnded = true ∧ s.store.state = .idle))

end Sys2Proof.Machine
end

