-- ==== Sys2Proof/Certificates/Slice0/Obligations.lean ====
section
/-!
DEFINITION. The statements for the provers. Each says which rule of spec/ it rests on, and where it rests on a choice of
the model's, the log entry. A request is taken (`Takes`) by the model's choice 6: from HUNT whole, or from SERVING.
That the entries one command posts stand next to each other in the ring (`Posts`) is the model's choice 33.
-/

open Sys2Proof Sys2Proof.Machine

/-! ### The step -/

/-- The step on a queue with a command in front is that command's meaning on the state with the queue's rest
(notes/assumptions/2.md). -/
def Obligations.StepRunsTheFrontCommand : Prop :=
  ∀ (i : Instr) (rest : List Instr) (s : State),
    step { s with pending := i :: rest } = exec i { s with pending := rest }

/-- Every command ends in a next state, and none touches the commands that wait (R134, R160, R165: every event and
request has its effect in every state). -/
def Obligations.EveryCommandEndsInANextState : Prop :=
  ∀ (i : Instr) (s : State), ∃ t, exec i s = .next t ∧ t.pending = s.pending

/-! ### Requests on the link -/

/-- Reading a request's kind and body gives the request back, for every well-formed request and every operand;
well-formed are the requests whose body fits a frame (R163, R168, R169). -/
def Obligations.RequestDecodingInvertsEncoding : Prop :=
  ∀ (i : Instr) (l : Link) (k : RequestKind) (body : List Byte),
    i.request? = some (l, k, body) →
      (i.wellFormed = true → decodeRequest l k.code body = .request k i) ∧
        (i.wellFormed = true ↔ body.length ≤ 60)

/-- The characters of a request's frame, received one after the other on a link in HUNT, leave the link SERVING that
request and change nothing else, with no restart pending or for STATUS (R160, R162, R163, R168). -/
def Obligations.RequestFrameIsReceivedWhole : Prop :=
  ∀ (i : Instr) (l : Link) (k : RequestKind) (body : List Byte) (s : State),
    i.wellFormed = true → i.request? = some (l, k, body) → s.startup.resetHeld = false → (s.link l).rx = .hunt →
    (s.startup.restart = none ∨ i = .status l) →
      execAll ((requestFrame k body).map (fun b => .characterReceived l (characterOf b))) s =
        .next (s.setLink l { s.link l with rx := .serving, buffer := [], gapAt := none, serving := some i })

/-- The body lengths that dispatch accepts are those of R163's table; for ZONE SET, 20 plus the surface count in the
body's third byte. -/
def Obligations.BodyLengthsAreTheTables : Prop :=
  ∀ (l : Link) (k : RequestKind) (body : List Byte),
    (decodeBody l k body).isSome = true ↔
      match k with
      | .status => body.length = 0
      | .lineGet => body.length = 1
      | .lineSet => body.length = 22
      | .zoneGet => body.length = 2
      | .zoneSet => 3 ≤ body.length ∧ body.length = 20 + (body.getD 2 0).toNat
      | .zoneHold => body.length = 5
      | .zoneRelease => body.length = 1
      | .zoneAck => body.length = 3
      | .outGet => body.length = 1
      | .outSet => body.length = 14
      | .outClaim => body.length = 4
      | .outDrop => body.length = 1
      | .eventsFetch => body.length = 1
      | .eventsSeek => body.length = 3
      | .linkSet => body.length = 6
      | .linkRank => body.length = 3
      | .save => body.length = 0
      | .restart => body.length = 0

/-- A request that its owner does not take: BAD_LENGTH for a body that fits no frame, RESTARTING while a restart is
pending, `overrun` alone while the link is serving another request or sending, nothing in a frame or a drain, and
nothing at all while the part is held in reset (R160, R163, R166, R176, R178; that the command stands for its frame is
the model's choice 6, and its readings of a second RESTART, of a frame too long and of the pin held are 25, 32 and 10).
-/
def Obligations.UntakenRequestsChangeOnlyTheirLink : Prop :=
  ∀ (i : Instr) (l : Link) (k : RequestKind) (body : List Byte) (s : State), i.request? = some (l, k, body) →
    (s.startup.resetHeld = true → exec i s = .next s) ∧
    (s.startup.resetHeld = false →
      ((s.link l).rx = .hunt → i.wellFormed = false →
        ∃ t, exec i s = .next t ∧ ChangesOnly [.links] s t ∧ Replies l k.code .badLength [] s t) ∧
      ((s.link l).rx = .hunt → i.wellFormed = true → s.startup.restart.isSome = true → i ≠ .status l →
        ∃ t, exec i s = .next t ∧ ChangesOnly [.links] s t ∧ Replies l k.code .restarting [] s t) ∧
      ((s.link l).rx = .serving → (s.link l).serving = some i → s.startup.restart.isSome = true → i = .restart l →
        ∃ t, exec i s = .next t ∧ ChangesOnly [.links] s t ∧ Replies l k.code .restarting [] s t) ∧
      ((s.link l).rx = .sending ∨ ((s.link l).rx = .serving ∧ (s.link l).serving ≠ some i) →
        exec i s = .next (s.setLink l { s.link l with overrun := true })) ∧
      ((s.link l).rx = .length ∨ (s.link l).rx = .body ∨ (s.link l).rx = .drain → exec i s = .next s))

/-- A character at a link, by `rx_state`: R160's table, with the bad check byte of R162. A character is in error when
data and parity hold an odd count of ones or the stop bit is low (R158). The gap timer is 20 ms, 160,000 ticks (R159);
once it has run, a frame in flight is discarded and counted, a drain ends, and the link goes to HUNT, and not before,
nor with the timer stopped (R161). That DRAIN's timer runs from the discarding character, the late taking of an
expiry, and the timer's count in ticks are the model's choices 30, 2 and 4. -/
def Obligations.ReceiverFollowsItsTables : Prop :=
  (∀ ch : Character,
    let ones := (List.range 8).countP (fun k => ch.data.getLsbD k) + (if ch.parity then 1 else 0)
    ch.isError = true ↔ ones % 2 = 1 ∨ ch.stop = false) ∧
  ∀ (l : Link) (ch : Character) (s : State), s.startup.resetHeld = false →
    let r := s.link l
    let gap := some (s.tick + 160000)
    let drained := { r with rx := .drain, buffer := [], gapAt := gap, discarded := min 65535 (r.discarded + 1) }
    let becomes (r' : LinkRecord) := exec (.characterReceived l ch) s = .next (s.setLink l r')
    (r.rx = .hunt → ch.data = 0xC5 → ch.isError = false →
        becomes { r with rx := .length, buffer := [], gapAt := gap }) ∧
      (r.rx = .hunt → ch.data ≠ 0xC5 ∨ ch.isError = true → exec (.characterReceived l ch) s = .next s) ∧
      (r.rx = .length → ch.isError = true ∨ ch.data.toNat = 0 ∨ 62 ≤ ch.data.toNat → becomes drained) ∧
      (r.rx = .length → ch.isError = false → 1 ≤ ch.data.toNat → ch.data.toNat ≤ 61 →
        becomes { r with rx := .body, buffer := [ch.data], gapAt := gap }) ∧
      (r.rx = .body → ch.isError = true → becomes drained) ∧
      (r.rx = .body → ch.isError = false → ∀ len bytes, r.buffer = len :: bytes → bytes.length < len.toNat →
        becomes { r with buffer := r.buffer ++ [ch.data], gapAt := gap }) ∧
      (r.rx = .body → ch.isError = false → ∀ len bytes, r.buffer = len :: bytes → len.toNat ≤ bytes.length →
        byteSum r.buffer + ch.data ≠ 0 →
        becomes { r with rx := .hunt, buffer := [], gapAt := none, discarded := min 65535 (r.discarded + 1) }) ∧
      (r.rx = .drain → becomes { r with gapAt := gap }) ∧
      (r.rx = .serving ∨ r.rx = .sending → becomes { r with overrun := true }) ∧
      (∀ due, r.gapAt = some due → due ≤ s.tick →
        (r.rx = .length ∨ r.rx = .body →
          exec (.gapTimerExpiry l) s =
            .next (s.setLink l
              { r with rx := .hunt, buffer := [], gapAt := none, discarded := min 65535 (r.discarded + 1) })) ∧
        (r.rx = .drain → exec (.gapTimerExpiry l) s = .next (s.setLink l { r with rx := .hunt, gapAt := none }))) ∧
      (r.gapAt = none ∨ (∃ due, r.gapAt = some due ∧ s.tick < due) → exec (.gapTimerExpiry l) s = .next s)

/-- The check byte of a valid frame: UNKNOWN_KIND, BAD_LENGTH and RESTARTING are answered at once and in this order, and
any other request is with its owner while the link is SERVING (R162, R163). -/
def Obligations.ValidFramesAreDispatched : Prop :=
  ∀ (l : Link) (ch : Character) (len kind : Byte) (body : List Byte) (s : State),
    s.startup.resetHeld = false → (s.link l).rx = .body → (s.link l).buffer = len :: kind :: body →
    len.toNat = body.length + 1 → ch.isError = false → byteSum (len :: kind :: body) + ch.data = 0 →
      let answers (c : StatusCode) :=
        ∃ t, exec (.characterReceived l ch) s = .next t ∧ ChangesOnly [.links] s t ∧ Replies l kind c [] s t
      (RequestKind.ofCode kind = none → answers .unknownKind) ∧
        ∀ k, RequestKind.ofCode kind = some k →
          (decodeBody l k body = none → answers .badLength) ∧
            ∀ i, decodeBody l k body = some i →
              (s.startup.restart.isSome = true → k ≠ .status → answers .restarting) ∧
                (s.startup.restart = none ∨ k = .status →
                  exec (.characterReceived l ch) s =
                    .next (s.setLink l
                      { s.link l with rx := .serving, buffer := [], gapAt := none, serving := some i }))

/-- The end of a response: driver enable released, the link in HUNT, and the end recorded for a restart requested on
this link. With no restart due by it, that is all; otherwise the restart takes effect in this event, as RESTART_EFFECT
has it, which is the model's reading 9 (R164, R178). On a link that is not SENDING there is no response to end. -/
def Obligations.ResponseEndFreesTheLink : Prop :=
  ∀ (l : Link) (s : State), s.startup.resetHeld = false →
    ((s.link l).rx ≠ .sending → exec (.responseEnd l) s = .next s) ∧
    ((s.link l).rx = .sending →
      let ended : State :=
        { s.setLink l { s.link l with rx := .hunt, response := none, driverEnable := false } with
          startup := { s.startup with
            restart := s.startup.restart.map
              (fun p => if p.link = l then { p with responseEnded := true } else p) } }
      ((∀ p, ended.startup.restart = some p → p.responseEnded = false ∨ s.store.state ≠ .idle) →
        exec (.responseEnd l) s = .next ended) ∧
      (∀ p, ended.startup.restart = some p → p.responseEnded = true → s.store.state = .idle →
        exec (.responseEnd l) s = exec .restartEffect ended))

/-- LINE GET, ZONE GET and OUT GET of an existing record, and STATUS, complete: DONE with every field of R169 and R171
at its offset, in a body of the table's length, ACTIVE of 21 + n bytes, PENDING of 4, or 23 + n with a pending
configuration. They change the sending link's own record and nothing else, but for STATUS, which empties that link's
cause set. A response is the frame of R168 with the codes of R165 and the link flags (R21, R104, R125, R145, R164, R165,
R168, R169, R171, R180; what is left once a moment is reached is the model's choice 29, the oldest seq of an empty ring
its choice 31). -/
def Obligations.ReadsAnswerTheRecord : Prop :=
  (∀ (l : Link) (s : State),
    let answers (i : Instr) (kind : Byte) (ps : List Part) (length : Nat) (fs : List Field) (t : State) :=
      exec i s = .next t ∧ ChangesOnly ps s t ∧
        ∃ body, Replies l kind .done body s t ∧ body.length = length ∧ HasFields body fs
    (∀ b n, Takes l (.lineGet l b) s → b.toNat = n.val + 1 →
      ∃ t, answers (.lineGet l b) 0x10 [.links] 45 (lineGetFields n s) t) ∧
    (∀ b z, b.toNat = z.val + 1 →
      let r := s.zone z
      (Takes l (.zoneGet l b 0) s →
        ∃ t, answers (.zoneGet l b 0) 0x20 [.links] (21 + r.active.surfaces.length) (zoneActiveFields z r) t) ∧
      (Takes l (.zoneGet l b 1) s →
        (r.pendingConfig = none → ∃ t, answers (.zoneGet l b 1) 0x20 [.links] 4 (zonePendingFields z r) t) ∧
        ∀ p, r.pendingConfig = some p →
          ∃ t, answers (.zoneGet l b 1) 0x20 [.links] (23 + p.config.surfaces.length) (zonePendingFields z r) t) ∧
      (Takes l (.zoneGet l b 2) s →
        ∃ t, answers (.zoneGet l b 2) 0x20 [.links] 18 (zoneStateFields s.now z r) t) ∧
      (Takes l (.zoneGet l b 3) s → ∃ t, answers (.zoneGet l b 3) 0x20 [.links] 33 (zoneEvalFields z r) t)) ∧
    (∀ b o, Takes l (.outGet l b) s → b.toNat = o.val + 1 →
      ∃ t, answers (.outGet l b) 0x30 [.links] 38 (outGetFields o s) t) ∧
    (Takes l (.status l) s →
      ∃ t, answers (.status l) 0x01 [.links, .startup] 18 (statusFields l s) t ∧
        t.startup = { s.startup with causes := s.startup.causes.set l 0 })) ∧
  (∀ (kind status flags : Byte) (body : List Byte), ∃ check,
    responseFrame kind status flags body =
        [0xC6, BitVec.ofNat 8 (3 + body.length), kind, status, flags] ++ body ++ [check] ∧
      byteSum (BitVec.ofNat 8 (3 + body.length) :: kind :: status :: flags :: body) + check = 0) ∧
  (∀ overrun lagging attention : Bool,
    (linkFlags overrun lagging attention).toNat =
      (if overrun then 1 else 0) + (if lagging then 2 else 0) + (if attention then 4 else 0)) ∧
  [StatusCode.done, .accepted, .outranked, .stale, .nothing, .badArg, .noSuch, .conflict, .busy, .restarting, .badLength,
    .unknownKind].map StatusCode.code =
    [0x00, 0x01, 0x02, 0x03, 0x04, 0x10, 0x11, 0x12, 0x13, 0x14, 0x15, 0x16]

/-- A request that names a line, zone or output outside its numbers is answered NO_SUCH, before any other check, and
changes nothing but its own link's record (Conventions; R12, R21, R67, R69, R76, R111, R112, R121, R125, R142, R145). -/
def Obligations.NumbersOutOfRangeAnswerNoSuch : Prop :=
  ∀ (i : Instr) (l : Link) (k : RequestKind) (body : List Byte) (s : State),
    i.request? = some (l, k, body) → Takes l i s → namesNothing i →
      ∃ t, exec i s = .next t ∧ ChangesOnly [.links] s t ∧ Replies l k.code .noSuch [] s t

/-- A request whose numbers exist but with a value out of its range is answered BAD_ARG and changes nothing but its own
link's record (R12, R21, R67, R76, R91, R93, R95, R111, R116, R121, R142). -/
def Obligations.ValuesOutOfRangeAnswerBadArg : Prop :=
  ∀ (i : Instr) (l : Link) (k : RequestKind) (body : List Byte) (s : State),
    i.request? = some (l, k, body) → Takes l i s → ¬namesNothing i → badValue s i →
      ∃ t, exec i s = .next t ∧ ChangesOnly [.links] s t ∧ Replies l k.code .badArg [] s t

/-- Roles refused with CONFLICT and no other change; a zone's configurations are the active and the pending one. LINE
SET: a line named in a role its new kind does not have, with the lowest-numbered zone that names it (R142). ZONE SET:
check 1, check 2 at the first offending surface, and check 3 with the lowest-numbered other zone; where the rules of
R13 hold in the table, a ZONE SET past checks 1 to 3 conflicts with nothing. -/
def Obligations.RoleConflictsAreRefused : Prop :=
  (∀ (r : ZoneRecord) (d : ZoneConfig),
    d ∈ r.configs ↔ d = r.active ∨ ∃ p, r.pendingConfig = some p ∧ d = p.config) ∧
  ∀ (l : Link) (s : State),
    (∀ num b n c z, Takes l (.lineSet l num b) s → lineOf num = some n → lineConfigOf b = some c →
      (∃ y, ∃ d ∈ (s.zone y).configs,
        (d.air = some n ∧ c.kind ≠ .air) ∨ (n ∈ d.surfaces ∧ c.kind ≠ .surface)) →
      (∃ d ∈ (s.zone z).configs, d.air = some n ∨ n ∈ d.surfaces) →
      (∀ y, y < z → ∀ d ∈ (s.zone y).configs, d.air ≠ some n ∧ n ∉ d.surfaces) →
        ∃ t, exec (.lineSet l num b) s = .next t ∧ ChangesOnly [.links] s t ∧
          Replies l 0x11 .conflict [lineByte n, zoneByte z] s t) ∧
    (∀ num b z c, Takes l (.zoneSet l num b) s → zoneOf num = some z → ¬namesNothing (.zoneSet l num b) →
      zoneConfigOf b = some c →
      let conflicts (n : LineId) (zone : Byte) :=
        ∃ t, exec (.zoneSet l num b) s = .next t ∧ ChangesOnly [.links] s t ∧
          Replies l 0x21 .conflict [lineByte n, zone] s t
      (∀ n, c.air = some n → (s.line n).config.kind ≠ .air → conflicts n 0) ∧
      ((∀ n, c.air = some n → (s.line n).config.kind = .air) →
        (∀ before n after, c.surfaces = before ++ n :: after → (s.line n).config.kind ≠ .surface →
          (∀ m ∈ before, (s.line m).config.kind = .surface) → conflicts n 0) ∧
        ((∀ n ∈ c.surfaces, (s.line n).config.kind = .surface) →
          (∀ n y, c.air = some n → y ≠ z → (∃ d ∈ (s.zone y).configs, d.air = some n) →
            (∀ x, x < y → x ≠ z → ∀ d ∈ (s.zone x).configs, d.air ≠ some n) → conflicts n (zoneByte y)) ∧
          (s.RolesOk → (∀ n y, c.air = some n → y ≠ z → ∀ d ∈ (s.zone y).configs, d.air ≠ some n) →
            zoneConflict z c s = none))))

/-! ### Probe lines -/

/-- A LINE SET past its checks: the configuration written whole as the block gives it, the measurement started afresh,
CONFIG of class LINE posted, and DONE; every other line and every other block as before (R143). A block with every field
within its values and ranges is read (R130, R131, R142; that the stall timer is counted in ticks is the model's choice
4). -/
def Obligations.LineSetStartsTheLineAfresh : Prop :=
  (∀ b : LineBlock, ¬badLine b → ∃ c, lineConfigOf b = some c) ∧
  ∀ (l : Link) (num : Byte) (b : LineBlock) (s : State) (n : LineId) (c : LineConfig),
    Takes l (.lineSet l num b) s → lineOf num = some n → lineConfigOf b = some c →
    (∀ y, ∀ d ∈ (s.zone y).configs, (d.air = some n → c.kind = .air) ∧ (n ∈ d.surfaces → c.kind = .surface)) →
      ∃ t, exec (.lineSet l num b) s = .next t ∧ ChangesOnly [.lines, .queue, .links] s t ∧ OnlyLine n s t ∧
        t.line n =
          { s.line n with
            config := c
            state := if c.kind = .off then .off else if s.warm then .warmup else .acquiring
            window := none
            stallAt := if c.kind = .off ∨ s.warm = true then none else some (s.tick + c.stallMs * 8000)
            lastQuality := .none
            fault := false
            lastRaw := none
            lastGood := none } ∧
        lineBlockBytes c = encodeLineBlock b ∧
        Posts [.config (.line n) l] s t ∧ Replies l 0x11 .done [] s t

/-- Edges that complete no window. A reference edge is ignored in OFF and WARMUP, begins a window in STALLED and in
ACQUIRING without one, and counts a period otherwise; it restarts the stall timer. The other edge changes the sampled
level alone. With no such edge waiting at the latest tick nothing happens (R133 to R135; the waiting edge and the stall
timer's count in ticks are the model's choices 5 and 4). -/
def Obligations.EdgesBeginAndCountPeriods : Prop :=
  ∀ (n : LineId) (s : State), s.startup.resetHeld = false →
    let r := s.line n
    let stall := some (s.tick + r.config.stallMs * 8000)
    (ReferenceEdgeWaits n s →
      (r.state = .off ∨ r.state = .warmup →
        exec (.referenceEdge n) s = .next (s.setLine n { r with sampled := some r.pin })) ∧
      (r.state = .stalled ∨ (r.state = .acquiring ∧ r.window = none) →
        exec (.referenceEdge n) s =
          .next (s.setLine n
            { r with
              sampled := some r.pin
              state := .acquiring
              window := some { periods := 0, span := 0, active := 0, refTick := s.tick, runActive := 0 }
              stallAt := stall })) ∧
      (∀ w, r.state = .acquiring → r.window = some w → w.periods + 1 ≠ r.config.window.periods →
        exec (.referenceEdge n) s =
          .next (s.setLine n
            { r with
              sampled := some r.pin
              window := some
                { periods := w.periods + 1, span := w.span + (s.tick - w.refTick), active := w.active + w.runActive,
                  refTick := s.tick, runActive := 0 }
              stallAt := stall }))) ∧
    (OtherEdgeWaits n s →
      exec (.nonReferenceEdge n) s = .next (s.setLine n { r with sampled := some r.pin })) ∧
    (¬ReferenceEdgeWaits n s → exec (.referenceEdge n) s = .next s) ∧
    (¬OtherEdgeWaits n s → exec (.nonReferenceEdge n) s = .next s)

/-- A window is of 16, 64 or 256 periods (R130). The reference edge that completes one: the result taken into the line
record by its quality, the next window begun at the same edge, PROBE_OK or PROBE_FAULT at a change of `fault`, and the
completion of an AIR line handed to the zone table (R136 to R138; the waiting edge, the stall timer's count in ticks
and the list of completions are the model's choices 5, 4 and 7). -/
def Obligations.CompletedWindowsAreTaken : Prop :=
  (WindowSize.w16.periods = 16 ∧ WindowSize.w64.periods = 64 ∧ WindowSize.w256.periods = 256) ∧
  ∀ (n : LineId) (s : State) (w : Window), s.startup.resetHeld = false → ReferenceEdgeWaits n s →
    (s.line n).state = .acquiring → (s.line n).window = some w →
    w.periods + 1 = (s.line n).config.window.periods →
      let r := s.line n
      let done := convert r.config (w.span + (s.tick - w.refTick)) (w.active + w.runActive)
      let begun : LineRecord :=
        { r with
          sampled := some r.pin
          window := some { periods := 0, span := 0, active := 0, refTick := s.tick, runActive := 0 }
          stallAt := some (s.tick + r.config.stallMs * 8000)
          lastRaw := some done.1 }
      ∃ t, exec (.referenceEdge n) s = .next t ∧ ChangesOnly [.lines, .queue, .handed] s t ∧ OnlyLine n s t ∧
        t.handed = s.handed ++ (if r.config.kind = .air then [⟨n, done.2, s.nowMs⟩] else []) ∧
        (∀ x, done.2 = .good x →
          t.line n = { begun with lastQuality := .good, lastGood := some ⟨x, s.nowMs⟩, fault := false } ∧
            Posts (if r.fault then [.probeOk n] else []) s t) ∧
        (∀ x, done.2 = .saturated x →
          t.line n = { begun with lastQuality := .saturated, lastGood := some ⟨x, s.nowMs⟩, fault := false } ∧
            Posts (if r.fault then [.probeOk n] else []) s t) ∧
        (done.2 = .range →
          t.line n = { begun with lastQuality := .range, fault := true } ∧
            Posts (if r.fault then [] else [.probeFault n .range]) s t)

/-- Uptime is the tick by 8,000,000 ticks a second, wrapping at 4,294,967,296 s, and in ms by 8000 ticks, wrapping
with it (Conventions, Units). A capture tick with no edge waiting: time moves on by one tick, every line's level is
taken, a first sample makes no edge, and the tick that ends counts for a window in flight when the sampled level was
the active one. Edges still waiting are taken before, as their own commands take them, which is the model's choice 5;
that uptime is counted from the number of ticks is its choice 3 (R132, R133). -/
def Obligations.CaptureTickSamplesEveryLine : Prop :=
  (∀ s : State,
    s.now.toNat = s.tick / 8000000 % 4294967296 ∧ s.nowMs = s.tick / 8000 % 4294967296000 ∧
      s.nowMs / 1000 = s.now.toNat ∧ uptimeOf s.tick = s.now) ∧
  ∀ (levels : BitVec 16) (s : State), s.startup.resetHeld = false →
    ((∀ n, NoEdgeWaits n s) →
      ∃ t, exec (.captureTick levels) s = .next t ∧ ChangesOnly [.tick, .lines] s t ∧ t.tick = s.tick + 1 ∧
        ∀ n, t.line n =
          { s.line n with
            pin := levels.getLsbD n.val
            sampled := if (s.line n).sampled = none then some (levels.getLsbD n.val) else (s.line n).sampled
            window := (s.line n).window.map (fun w =>
              if (s.line n).sampled = some (decide ((s.line n).config.polarity = .normal)) then
                { w with runActive := w.runActive + 1 }
              else w) }) ∧
    (∃ t, execAll ((List.finRange 16).flatMap (fun n => [.referenceEdge n, .nonReferenceEdge n])) s = .next t ∧
      (∀ n, NoEdgeWaits n t) ∧ exec (.captureTick levels) s = exec (.captureTick levels) t)

/-- The expiry of a running stall timer: the window abandoned, STALLED, `fault` set with PROBE_FAULT STALLED if it was
clear, the readings kept; nothing before the expiry is reached, nor on a line that is not ACQUIRING (R139; the late
taking and the count in ticks are the model's choices 2 and 4). -/
def Obligations.StallTimerExpiryStallsTheLine : Prop :=
  ∀ (n : LineId) (s : State), s.startup.resetHeld = false →
    let r := s.line n
    (∀ due, r.state = .acquiring → r.stallAt = some due → due ≤ s.tick →
      ∃ t, exec (.stallTimerExpiry n) s = .next t ∧ ChangesOnly [.lines, .queue] s t ∧ OnlyLine n s t ∧
        t.line n = { r with window := none, state := .stalled, stallAt := none, fault := true } ∧
        Posts (if r.fault then [] else [.probeFault n .stalled]) s t) ∧
    (r.state ≠ .acquiring ∨ r.stallAt = none ∨ (∃ due, r.stallAt = some due ∧ s.tick < due) →
      exec (.stallTimerExpiry n) s = .next s)

/-- What a line record holds between whole events is kept by every step. -/
def Obligations.LineRecordsStayInOrder : Prop :=
  ∀ s t : State, s.LinesOk → step s = .next t → t.LinesOk

/-! ### Arithmetic -/

/-- R39 and the Conventions: rounded to the nearest integer, halves away from zero, for negative quantities as for
positive ones; with R39's own examples. -/
def Obligations.RoundedIsNearestHalvesAway : Prop :=
  (∀ a b : Int, 0 < b →
    2 * |a - b * rounded a b| ≤ b ∧ (2 * |a - b * rounded a b| = b → |a| < |b * rounded a b|)) ∧
    rounded (-1) 2 = -1 ∧ rounded (-3) 2 = -2 ∧ rounded (-1) 4 = 0 ∧ rounded (-2) 5 = 0

/-- R27 to R31 over R25's table: es by interpolation in the segment of T, e from es and RH, the dew point by inverse
interpolation in the segment of e with knot 12 its own case, limited to T without touching the flag. Below 611 Pa it is
0 with DP_FLOOR, the limit holding at once for air at 0 or more; at 611 or more the flag is clear, and at 611 the dew
point is 0 without it. One evaluation's e, Td and DP_FLOOR are these. -/
def Obligations.PressureAndDewPointFollowTheTable : Prop :=
  let table : List Int := [611, 872, 1228, 1705, 2339, 3169, 4246, 5627, 7381, 9590, 12344, 15752, 19932]
  saturation 6000 = 19932 ∧
    (∀ (k : Nat) (t a b : Int), table[k]? = some a → table[k + 1]? = some b → 500 * k ≤ t → t < 500 * (k + 1) →
      saturation t = a + rounded ((b - a) * (t - 500 * k)) 500 ∧ a ≤ saturation t ∧ saturation t ≤ b) ∧
    (∀ es rh : Int, vapour es rh = rounded (es * rh) 1000 ∧ vapour es 1000 = es ∧ vapour es 0 = 0) ∧
    (∀ (k : Nat) (e a : Int), table[k]? = some a → a ≤ e → (∀ b, table[k + 1]? = some b → e < b) →
      (k = 12 → dewPointRaw e = (6000, false)) ∧
        ∀ b, table[k + 1]? = some b →
          dewPointRaw e = (500 * k + rounded (500 * (e - a)) (b - a), false) ∧ 500 * k ≤ (dewPointRaw e).1 ∧
            (dewPointRaw e).1 ≤ 500 * (k + 1)) ∧
    (∀ e t : Int, (dewPoint e t).2 = (dewPointRaw e).2 ∧
      (t < (dewPointRaw e).1 → (dewPoint e t).1 = t) ∧ ((dewPointRaw e).1 ≤ t → (dewPoint e t).1 = (dewPointRaw e).1)) ∧
    (∀ e t : Int, e < 611 → 0 ≤ t → dewPoint e t = (0, true)) ∧
    (∀ e t : Int, 611 ≤ e → (dewPoint e t).2 = false) ∧ (∀ t : Int, 0 ≤ t → dewPoint 611 t = (0, false)) ∧
    ∀ (t rh : Int) (u : LineId × Int) (us : List (LineId × Int)) (history : List Int) (lead : Nat),
      let x := condensation t rh u us history lead
      x.e = vapour (saturation t) rh ∧ (x.td, x.dpFloor) = dewPoint x.e t

/-- The conversion of a completed window of an AIR or SURFACE line. P and D as R150 and R151 give, D in 0..10,000; RH
and T by the calibration. RANGE when the raw check fails or a value lies beyond its clamp band; GOOD with the values
when all lie in their valid ranges; SATURATED with the values at their range edges otherwise. A SURFACE line has no RH
to sort, and the model's reading holds 0 for it (R149 to R156). -/
def Obligations.ConversionSortsTheReading : Prop :=
  ∀ (c : LineConfig) (span active : Nat), c.kind ≠ .off → 0 < span → active ≤ span →
    let p := rounded (span * 125) c.window.periods
    let d := rounded (10000 * active) span
    let rh := c.rhOffset + rounded (c.rhGain * (p - c.rhRef)) 65536
    let t := c.tOffset + rounded (c.tGain * d) 10000
    let coldest : Int := if c.kind = .surface then -1000 else 0
    let works := 25000 ≤ p ∧ p ≤ 1000000 ∧ 100 ≤ d ∧ d ≤ 9900
    let inBands := (c.kind = .air → -50 ≤ rh ∧ rh ≤ 1050) ∧ coldest - 100 ≤ t ∧ t ≤ 6100
    let valid := (c.kind = .air → 0 ≤ rh ∧ rh ≤ 1000) ∧ coldest ≤ t ∧ t ≤ 6000
    let edge : Reading :=
      { rh := if c.kind = .air then max 0 (min 1000 rh) else 0, temp := max coldest (min 6000 t) }
    (convert c span active).1 = { p := p, d := d } ∧ 0 ≤ d ∧ d ≤ 10000 ∧
      (¬works ∨ ¬inBands → (convert c span active).2 = .range) ∧
      (works → valid →
        (convert c span active).2 = .good { rh := if c.kind = .air then rh else 0, temp := t }) ∧
      (works → inBands → ¬valid → (convert c span active).2 = .saturated edge)

/-- The ranges of one evaluation's results, for air and surfaces in their ranges: es in 611..19,932 and rising with T, e
in 0..es, Td in 0..6000, never above T and limited to it only by 1, m in -7000..6000, p and g in -9999..9999 and never
above m (R10, R27, R28, R30, R31, R32, R35, R37). -/
def Obligations.EvaluationResultsLieInRange : Prop :=
  (∀ t u : Int, 0 ≤ t → t ≤ u → u ≤ 6000 →
    611 ≤ saturation t ∧ saturation t ≤ saturation u ∧ saturation u ≤ 19932) ∧
  ∀ (t rh : Int) (u : LineId × Int) (us : List (LineId × Int)) (history : List Int) (lead : Nat),
    0 ≤ t → t ≤ 6000 → 0 ≤ rh → rh ≤ 1000 → (∀ v ∈ u :: us, -1000 ≤ v.2 ∧ v.2 ≤ 6000) →
      let x := condensation t rh u us history lead
      0 ≤ x.e ∧ x.e ≤ saturation t ∧ 0 ≤ x.td ∧ x.td ≤ t ∧ (dewPointRaw x.e).1 ≤ t + 1 ∧ -7000 ≤ x.m ∧ x.m ≤ 6000 ∧
        (∀ p, x.p = some p → -9999 ≤ p ∧ p ≤ 9999 ∧ p ≤ x.m) ∧ -9999 ≤ x.g ∧ x.g ≤ 9999 ∧ x.g ≤ x.m

/-- R32: m is the smallest difference between a usable surface's temperature and the dew point, and the coldest line is
the first in order that gives it. -/
def Obligations.RawMarginIsTheSmallestDifference : Prop :=
  ∀ (t rh : Int) (u : LineId × Int) (us : List (LineId × Int)) (history : List Int) (lead : Nat),
    let x := condensation t rh u us history lead
    (∀ v ∈ u :: us, x.m ≤ v.2 - x.td) ∧
      ∃ before temp after, u :: us = before ++ (x.coldest, temp) :: after ∧ temp - x.td = x.m ∧
        ∀ v ∈ before, x.m < v.2 - x.td

/-- R34, R35, R37, R38: a projection only with four margins held and m below the oldest; p from the fall and the lead,
clamped; g the smaller of m and p, clamped; PROJECTED exactly when p is present and below m. -/
def Obligations.ProjectionAndGoverningMargin : Prop :=
  ∀ (t rh : Int) (u : LineId × Int) (us : List (LineId × Int)) (history : List Int) (lead : Nat),
    let x := condensation t rh u us history lead
    (x.p.isSome = true ↔ history.length = 4 ∧ ∃ h, history.head? = some h ∧ x.m < h) ∧
      (∀ h p, history.head? = some h → x.p = some p →
        p = max (-9999) (min 9999 (x.m + rounded ((x.m - h) * lead) 4))) ∧
      (∀ p, x.p = some p → x.g = max (-9999) (min 9999 (min x.m p)) ∧ (x.projected = true ↔ p < x.m)) ∧
      (x.p = none → x.g = max (-9999) (min 9999 x.m) ∧ x.projected = false)

/-- In order of worsening the levels are CLEAR, WATCH, WARN and WET (Conventions, Levels). R51: the first row whose
condition holds gives the level, so that a smaller margin never gives a better level, and a margin equal to a
threshold falls on the worse side. R52: worsening takes effect at the threshold itself; an improvement is the better
of the level held and what g less `hyst` still supports, so it never worsens the level nor goes past level(g); with
`hyst` 0 the raw level is level(g). -/
def Obligations.ThresholdsAndHysteresis : Prop :=
  (Level.clear.rank < Level.watch.rank ∧ Level.watch.rank < Level.warn.rank ∧ Level.warn.rank < Level.wet.rank) ∧
  ∀ c : ZoneConfig, c.wetBelow < c.warnBelow → c.warnBelow < c.watchBelow → 0 ≤ c.hyst →
    (∀ x : Int,
      (thresholdLevel c x = .wet ↔ x ≤ c.wetBelow) ∧
        (thresholdLevel c x = .warn ↔ c.wetBelow < x ∧ x ≤ c.warnBelow) ∧
        (thresholdLevel c x = .watch ↔ c.warnBelow < x ∧ x ≤ c.watchBelow) ∧
        (thresholdLevel c x = .clear ↔ c.watchBelow < x) ∧
        ∀ y, x ≤ y → (thresholdLevel c y).rank ≤ (thresholdLevel c x).rank) ∧
    ∀ (held : Level) (g : Int),
      (held.rank ≤ (thresholdLevel c g).rank → rawLevel c held g = thresholdLevel c g) ∧
        ((thresholdLevel c g).rank < held.rank →
          (rawLevel c held g).rank = min held.rank (thresholdLevel c (g - c.hyst)).rank ∧
            (thresholdLevel c g).rank ≤ (rawLevel c held g).rank ∧ (rawLevel c held g).rank ≤ held.rank) ∧
        (c.hyst = 0 → rawLevel c held g = thresholdLevel c g)

/-! ### Zones -/

/-- R64's two tables: the base from the status, then the hold. A DISABLED zone has no effective level, whatever its
hold: it makes no DEMAND output's demand ON, and ZONE GET reports none. -/
def Obligations.EffectiveLevelFollowsStatusAndHold : Prop :=
  ∀ r : ZoneRecord,
    (r.status = .disabled →
      r.effective = none ∧ (∀ trigger, zoneDemands trigger r = false) ∧
        ∀ now z, (zoneStateBody now z r).getD 10 0 = 0xFF) ∧
      ∀ base, (r.status = .starting ∧ base = r.active.failLevel) ∨ (r.status = .active ∧ base = r.level) ∨
          (r.status = .unknown ∧ base = r.active.failLevel) →
        (r.hold = none → r.effective = some base) ∧
          (∀ h, r.hold = some h → h.mode = .suppress → r.effective = some .clear) ∧
          ∀ h x, r.hold = some h → h.mode = .assert x →
            ∃ y, r.effective = some y ∧ (y = base ∨ y = x) ∧ base.rank ≤ y.rank ∧ x.rank ≤ y.rank

/-- An accepted ZONE SET. On a DISABLED zone it takes effect at once: configuration, epoch, CONFIG, what a change of
lines clears, STARTING with its deadline if it is enabled, and DONE with the new epoch. On any other zone it becomes the
pending configuration with its writer, ACCEPTED with the epoch in force, and nothing else changes (R14, R15, R18 to
R20). A block within the values of R2 to R4 and R12 whose line numbers exist is read (that one event gives each output
one notice is the model's choice 21). -/
def Obligations.ZoneSetTakesEffectOrWaits : Prop :=
  (∀ b : ZoneBlock, ¬badZone b → b.air.toNat ≤ 16 → (∀ n ∈ b.surfaces, ¬outside 16 n) →
    ∃ c, zoneConfigOf b = some c) ∧
  ∀ (l : Link) (num : Byte) (b : ZoneBlock) (s : State) (z : ZoneId) (c : ZoneConfig),
    Takes l (.zoneSet l num b) s → zoneOf num = some z → ¬namesNothing (.zoneSet l num b) →
    zoneConfigOf b = some c → zoneConflict z c s = none →
      let r := s.zone z
      let same := r.active.air = c.air ∧ ∀ n, n ∈ r.active.surfaces ↔ n ∈ c.surfaces
      let changed : ZoneRecord := { r with active := c, pendingConfig := none, epoch := r.epoch + 1 }
      zoneBlockBytes c = encodeZoneBlock b ∧
      (r.status = .disabled → ∀ base : ZoneRecord,
        (same → base = changed) →
        (¬same → base = { changed with history := [], pending := none, failCount := 0, lastEval := none }) →
        ∃ t, exec (.zoneSet l num b) s = .next t ∧ ChangesOnly [.zones, .queue, .outs, .links] s t ∧ OnlyZone z s t ∧
          t.zone z =
            (if c.air ≠ none ∧ c.surfaces ≠ [] then
              { base with
                status := .starting
                level := .clear
                deadline := if s.warm then none else some (s.now + BitVec.ofNat 32 c.staleS) }
            else base) ∧
          Posts [.config (.zone z (r.epoch + 1)) l] s t ∧ Tells z (r.effective ≠ (t.zone z).effective) s t ∧
          Replies l 0x21 .done [r.epoch + 1] s t) ∧
      (r.status ≠ .disabled →
        ∃ t, exec (.zoneSet l num b) s = .next t ∧ ChangesOnly [.zones, .links] s t ∧ OnlyZone z s t ∧
          t.zone z = { r with pendingConfig := some ⟨c, l⟩ } ∧ Replies l 0x21 .accepted [r.epoch] s t)

/-- A ZONE HOLD past its checks: the hold written whole with its expiry, HOLD posted, the outputs told if the effective
level changed, and DONE with the hold it replaced (R67, R68; the notice is the model's choices 8 and 21). -/
def Obligations.ZoneHoldSetsTheHold : Prop :=
  ∀ (l : Link) (num mode level : Byte) (minutes : Half) (s : State) (z : ZoneId) (m : HoldMode),
    Takes l (.zoneHold l num mode level minutes) s → zoneOf num = some z → (s.zone z).status ≠ .disabled →
    (mode = 1 ∧ level = 0xFF ∧ m = .suppress) ∨
      (mode = 2 ∧ ((level = 1 ∧ m = .assert .watch) ∨ (level = 2 ∧ m = .assert .warn) ∨
        (level = 3 ∧ m = .assert .wet))) →
    1 ≤ minutes.toNat → minutes.toNat ≤ 1440 →
      ∃ t, exec (.zoneHold l num mode level minutes) s = .next t ∧
        ChangesOnly [.zones, .queue, .outs, .links] s t ∧ OnlyZone z s t ∧
        t.zone z =
          { s.zone z with
            hold := some { mode := m, link := l, expiry := s.now + BitVec.ofNat 32 (60 * minutes.toNat) } } ∧
        Posts [.hold z l m minutes.toNat] s t ∧ Tells z ((s.zone z).effective ≠ (t.zone z).effective) s t ∧
        Replies l 0x22 .done
          [flagByte (s.zone z).hold.isSome, linkByte ((s.zone z).hold.map (fun h => h.link))] s t

/-- The two ends of a hold. ZONE RELEASE: NOTHING without one; otherwise it is made absent, HOLD_END RELEASED is posted
and DONE carries it. Its expiry ends it with HOLD_END EXPIRED once its second is reached, and not before. Both hold in
any status, and the outputs are told if the effective level changed (R69, R70; the late taking, 'reached' across the
wrap and the notice are the model's choices 2, 28 and 21). -/
def Obligations.HoldsEndByReleaseAndExpiry : Prop :=
  ∀ (z : ZoneId) (s : State),
    let ends (cause : HoldEndCause) (l : Link) (ps : List Part) (t : State) :=
      ChangesOnly ([.zones, .queue, .outs] ++ ps) s t ∧ OnlyZone z s t ∧
        t.zone z = { s.zone z with hold := none } ∧ Posts [.holdEnd z cause l] s t ∧
        Tells z ((s.zone z).effective ≠ (t.zone z).effective) s t
    (∀ l num, Takes l (.zoneRelease l num) s → zoneOf num = some z →
      ((s.zone z).hold = none →
        ∃ t, exec (.zoneRelease l num) s = .next t ∧ ChangesOnly [.links] s t ∧ Replies l 0x23 .nothing [] s t) ∧
      ∀ h, (s.zone z).hold = some h →
        ∃ t, exec (.zoneRelease l num) s = .next t ∧ ends .released l [.links] t ∧
          Replies l 0x23 .done [byteOf h.mode.code, levelByteOpt h.mode.level?, linkByte (some h.link)] s t) ∧
    (s.startup.resetHeld = false →
      (∀ h, (s.zone z).hold = some h → (s.now - h.expiry).toNat < 2 ^ 31 →
        ∃ t, exec (.holdExpiry z) s = .next t ∧ ends .expired h.link [] t) ∧
      ((s.zone z).hold = none ∨ (∃ h, (s.zone z).hold = some h ∧ 2 ^ 31 ≤ (s.now - h.expiry).toNat) →
        exec (.holdExpiry z) s = .next s))

/-- ZONE ACK on an existing zone with a seq above 0: NOTHING without a latch, STALE with the latch seq for another seq,
and DONE for the latch's own, which clears it, posts ACK and tells the outputs (R76; the notice is the model's choices 8
and 21). -/
def Obligations.ZoneAckClearsTheLatch : Prop :=
  ∀ (l : Link) (num : Byte) (seq : Half) (s : State) (z : ZoneId),
    Takes l (.zoneAck l num seq) s → zoneOf num = some z → seq ≠ 0 →
      ((s.zone z).latch = none →
        ∃ t, exec (.zoneAck l num seq) s = .next t ∧ ChangesOnly [.links] s t ∧ Replies l 0x24 .nothing [] s t) ∧
      (∀ n, (s.zone z).latch = some n → seq.toNat ≠ n →
        ∃ t, exec (.zoneAck l num seq) s = .next t ∧ ChangesOnly [.links] s t ∧
          Replies l 0x24 .stale (halfOf n) s t) ∧
      ((s.zone z).latch = some seq.toNat →
        ∃ t, exec (.zoneAck l num seq) s = .next t ∧ ChangesOnly [.zones, .queue, .outs, .links] s t ∧
          OnlyZone z s t ∧ t.zone z = { s.zone z with latch := none } ∧ Posts [.ack z l seq.toNat] s t ∧
          Tells z True s t ∧ Replies l 0x24 .done [] s t)

/-- An evaluation that stage 1 ends: after the transfer the completed line is no longer the zone's air line, or the zone
is DISABLED, and the transfer is all that happened. A completion that is no zone's evaluation event is taken and changes
nothing else, and with none handed over nothing happens. A transfer is written out, for every status: the configuration,
the epoch, what a change of the air line or of the set of surface lines clears, and the rows of R19 with the deadline of
R20 (R18 to R20, R41, R43, R138; the list of completions and the one notice of an event are the model's choices 7 and
21). -/
def Obligations.EvaluationsThatDoNotGoOn : Prop :=
  (∀ (now : Word) (warm : Bool) (c : ZoneConfig) (r : ZoneRecord),
    let same := r.active.air = c.air ∧ ∀ n, n ∈ r.active.surfaces ↔ n ∈ c.surfaces
    let enabled := c.air ≠ none ∧ c.surfaces ≠ []
    let changed : ZoneRecord := { r with active := c, pendingConfig := none, epoch := r.epoch + 1 }
    ∀ base : ZoneRecord,
      (same → base = changed) →
      (¬same → base = { changed with history := [], pending := none, failCount := 0, lastEval := none }) →
        (r.status = .disabled → ¬enabled → r.transfer now warm c = base) ∧
        (r.status = .disabled → enabled →
          r.transfer now warm c =
            { base with
              status := .starting
              level := .clear
              deadline := if warm then none else some (now + BitVec.ofNat 32 c.staleS) }) ∧
        (r.status = .starting ∨ r.status = .active ∨ r.status = .unknown → enabled → r.transfer now warm c = base) ∧
        (r.status = .starting ∨ r.status = .active ∨ r.status = .unknown → ¬enabled →
          r.transfer now warm c =
            { base with status := .disabled, deadline := none, pending := none, unknownReason := none })) ∧
  ∀ (n : LineId) (s : State), s.startup.resetHeld = false →
    ((∀ d ∈ s.handed, d.line ≠ n) → exec (.evaluationEvent n) s = .next s) ∧
    ∀ c rest, NextCompletion n c rest s →
      ((∀ y, (s.zone y).active.air ≠ some n ∨ (s.zone y).status = .disabled) →
        exec (.evaluationEvent n) s = .next { s with handed := rest }) ∧
      ∀ z, Evaluates z n s →
        let (r, entries) := stageOne z s
        (r.active.air ≠ some n ∨ r.status = .disabled) →
          ∃ t, exec (.evaluationEvent n) s = .next t ∧ ChangesOnly [.handed, .zones, .queue, .outs] s t ∧
            t.handed = rest ∧ OnlyZone z s t ∧ t.zone z = r ∧ Posts entries s t ∧
            Tells z ((s.zone z).effective ≠ r.effective) s t

/-- A failed evaluation, by AIR_BAD, or by NO_SURFACE with no surface line whose last good reading is at most
`surface_age_s` × 1000 ms old: the count alone below the fail limit and in UNKNOWN; at or above the limit STARTING and
ACTIVE turn UNKNOWN with the reason and a LEVEL entry, giving up `pending` and `history` (R42 to R49; that the entries
of one event stand next to each other, its one notice, and the moment the ages are taken at are the model's choices 33,
21 and 23). -/
def Obligations.FailedEvaluationsCount : Prop :=
  ∀ (n : LineId) (z : ZoneId) (c : Completion) (rest : List Completion) (why : UnknownReason) (s : State),
    s.startup.resetHeld = false → NextCompletion n c rest s → Evaluates z n s →
      let (r1, entries) := stageOne z s
      let r := r1.settle
      let k := min 7 (r.failCount + 1)
      r.active.air = some n → r.status ≠ .disabled →
      (c.result = .range ∧ why = .airBad) ∨
        (c.result ≠ .range ∧ why = .noSurface ∧
          ∀ m ∈ r.active.surfaces, ∀ g, (s.line m).lastGood = some g →
            r.active.surfaceAgeS * 1000 < elapsedMs s.nowMs g.time) →
        ∃ t, exec (.evaluationEvent n) s = .next t ∧ ChangesOnly [.handed, .zones, .queue, .outs] s t ∧
          t.handed = rest ∧ OnlyZone z s t ∧
          Tells z ((s.zone z).effective ≠ (t.zone z).effective) s t ∧
          (r.status = .unknown ∨ k < r.active.failLimit →
            t.zone z = { r with failCount := k } ∧ Posts entries s t) ∧
          (r.status ≠ .unknown → r.active.failLimit ≤ k →
            t.zone z =
              { r with
                failCount := k, status := .unknown, unknownReason := some why, pending := none, history := [] } ∧
            Posts
              (entries ++
                [.level z (if r.status = .starting then .starting else .level r.level) .unknown
                  (r.hold.any (fun h => decide (h.mode = .suppress))) false false (some why) 0 0])
              s t)

/-- A successful evaluation, over the surface lines, in list order, whose last good reading is at most `surface_age_s` ×
1000 ms old (R46): the record of success with the flags of R46 (R50), then the level. From STARTING or UNKNOWN it is
level(g) at once, with a LEVEL entry (R53). In ACTIVE the raw level ends, starts or advances the run by R54's rows, and
the run that reaches its confirmation count changes the level with a LEVEL entry (R52, R54, R55). The entry carries what
R62 gives and sets the latch as R74 gives (that the entries of one event stand next to each other, its one notice, and
the moment the ages are taken at are the model's choices 33, 21 and 23). -/
def Obligations.SuccessfulEvaluationsDecideTheLevel : Prop :=
  ∀ (n : LineId) (z : ZoneId) (c : Completion) (rest : List Completion) (x : Reading) (u : LineId × Int)
    (us : List (LineId × Int)) (s : State) (temp : LineId → Option Int) (run : PendingLevel),
    s.startup.resetHeld = false → NextCompletion n c rest s → Evaluates z n s →
      let (r1, entries) := stageOne z s
      let r := r1.settle
      let res := condensation x.temp x.rh u us r.history r.active.lead
      let success : ZoneRecord :=
        { r with
          failCount := 0
          deadline := some (s.now + BitVec.ofNat 32 r.active.staleS)
          unknownReason := none
          lastEval := some
            { time := s.now, airT := x.temp, rh := x.rh, e := res.e, td := res.td, dpFloor := res.dpFloor,
              saturatedInput :=
                decide (c.result = .saturated x ∨ ∃ v ∈ u :: us, (s.line v.1).lastQuality = .saturated),
              agedSurface := decide (∃ v ∈ u :: us, (s.line v.1).fault = true), m := res.m, p := res.p, g := res.g,
              coldest := res.coldest }
          history := (if r.history.length < 4 then r.history else r.history.drop 1) ++ [res.m] }
      let held := r.hold.any (fun h => decide (h.mode = .suppress))
      let entry (old : Condition) (new : Level) : Content :=
        .level z old (.level new) held res.projected res.dpFloor none res.g res.td
      let latched (sets : Prop) [Decidable sets] (t : State) (r' : ZoneRecord) : ZoneRecord :=
        { r' with latch := if sets then some t.queue.newest else r.latch }
      r.active.air = some n → r.status ≠ .disabled → c.result = .good x ∨ c.result = .saturated x →
      (∀ m k, temp m = some k ↔ ∃ g, (s.line m).lastGood = some g ∧ g.reading.temp = k ∧
        elapsedMs s.nowMs g.time ≤ r.active.surfaceAgeS * 1000) →
      r.active.surfaces.filterMap (fun m => (temp m).map (fun k => (m, k))) = u :: us →
        ∃ t, exec (.evaluationEvent n) s = .next t ∧ ChangesOnly [.handed, .zones, .queue, .outs] s t ∧
          t.handed = rest ∧ OnlyZone z s t ∧
          (r.status ≠ .active →
            let new := thresholdLevel r.active res.g
            let sets := 2 ≤ new.rank ∧ held = false
            t.zone z = latched sets t { success with status := .active, level := new, pending := none } ∧
              Posts (entries ++ [entry (if r.status = .starting then .starting else .unknown) new]) s t ∧
              Tells z ((s.zone z).effective ≠ (t.zone z).effective ∨ sets) s t) ∧
          (r.status = .active →
            let raw := rawLevel r.active r.level res.g
            let needed := if r.level.rank < raw.rank then r.active.worsenConfirm else r.active.improveConfirm
            let sets := 2 ≤ raw.rank ∧ r.level.rank < raw.rank ∧ held = false
            let runs := (r.pending = none → run = ⟨raw, 1⟩) ∧
              (∀ q, r.pending = some q → q.level = raw → run = ⟨raw, q.count + 1⟩) ∧
              (∀ q, r.pending = some q → q.level ≠ raw → run = ⟨raw, 1⟩)
            (raw = r.level →
              t.zone z = { success with pending := none } ∧ Posts entries s t ∧
                Tells z ((s.zone z).effective ≠ (t.zone z).effective) s t) ∧
            (raw ≠ r.level → runs → run.count < needed →
              t.zone z = { success with pending := some run } ∧ Posts entries s t ∧
                Tells z ((s.zone z).effective ≠ (t.zone z).effective) s t) ∧
            (raw ≠ r.level → runs → needed ≤ run.count →
              t.zone z = latched sets t { success with level := raw, pending := none } ∧
                Posts (entries ++ [entry (.level r.level) raw]) s t ∧
                Tells z ((s.zone z).effective ≠ (t.zone z).effective ∨ sets) s t))

/-- R44's table: a pending count at or above the confirmation count of its direction settles to one less, or to no
pending level where that count is 1; nothing else changes. -/
def Obligations.SettlementOfThePendingCount : Prop :=
  ∀ r : ZoneRecord,
    (r.pending = none → r.settle = r) ∧
      ∀ p, r.pending = some p →
        let k := if r.level.rank < p.level.rank then r.active.worsenConfirm else r.active.improveConfirm
        (p.count < k → r.settle = r) ∧
          (k ≤ p.count → 2 ≤ k → r.settle = { r with pending := some { p with count := k - 1 } }) ∧
          (k ≤ p.count → k = 1 → r.settle = { r with pending := none })

/-- The expiry of a stale deadline. STARTING and ACTIVE turn UNKNOWN with reason STALE and a LEVEL entry, then a pending
configuration is transferred; in UNKNOWN the transfer is all; the deadline is absent after it. Nothing happens before
its second is reached (R17, R57, R58; the late taking, 'reached' across the wrap, the one notice of an event and its
entries next to each other are the model's choices 2, 28, 21 and 33). -/
def Obligations.StaleDeadlineExpiryTurnsUnknown : Prop :=
  ∀ (z : ZoneId) (s : State), s.startup.resetHeld = false →
    let r := s.zone z
    let expired (r0 : ZoneRecord) : ZoneRecord × List Content :=
      match r0.pendingConfig with
      | none => (r0, [])
      | some p =>
        let r' := r0.transfer s.now s.warm p.config
        (r', [.config (.zone z r'.epoch) p.writer])
    (∀ due, r.deadline = some due → (s.now - due).toNat < 2 ^ 31 →
      (r.status = .starting ∨ r.status = .active →
        let (r2, entries) := expired
          { r with deadline := none, status := .unknown, unknownReason := some .stale, pending := none, history := [] }
        ∃ t, exec (.staleDeadlineExpiry z) s = .next t ∧ ChangesOnly [.zones, .queue, .outs] s t ∧ OnlyZone z s t ∧
          t.zone z = r2 ∧
          Posts
            (.level z (if r.status = .starting then .starting else .level r.level) .unknown
              (r.hold.any (fun h => decide (h.mode = .suppress))) false false (some .stale) 0 0 :: entries)
            s t ∧
          Tells z (r.effective ≠ r2.effective) s t) ∧
      (r.status = .unknown →
        let (r2, entries) := expired { r with deadline := none }
        ∃ t, exec (.staleDeadlineExpiry z) s = .next t ∧ ChangesOnly [.zones, .queue, .outs] s t ∧ OnlyZone z s t ∧
          t.zone z = r2 ∧ Posts entries s t ∧ Tells z (r.effective ≠ r2.effective) s t)) ∧
    (r.deadline = none ∨ (∃ due, r.deadline = some due ∧ 2 ^ 31 ≤ (s.now - due).toNat) →
      exec (.staleDeadlineExpiry z) s = .next s)

/-- What a zone record holds between whole events is kept by every step. -/
def Obligations.ZoneRecordsStayInOrder : Prop :=
  ∀ s t : State, s.ZonesOk → step s = .next t → t.ZonesOk

/-- The two rules that R13 says its checks and LINE SET's keep true are kept by every step. -/
def Obligations.LineRolesStayApart : Prop :=
  ∀ s t : State, s.RolesOk → step s = .next t → t.RolesOk

/-! ### The event queue -/

/-- A posting: the next seq and the uptime second given, the entry appended, the oldest of 64 discarded first; a cursor
on the discarded entry moves on, with its match counted out of the backlog and into `missed`; each link's backlog counts
a matching new entry; `lagging` follows each change of the backlog, keeping its value from 32 to 47; and attention and
gather timer follow the new backlog, the timer started for `gather_ms` and never restarted, an asserted line asserted
while there is a backlog (R81, R85, R86, R96 to R99; that `lagging` follows the discard and the count one after the
other, and the timer's count in ticks, are the model's choices 11 and 4). -/
def Obligations.PostingAppendsAndDiscards : Prop :=
  ∀ (q : Queue) (tick : Nat) (c : Content), q.RingOk →
    let full := q.ring.length = 64
    let e : Entry := { seq := if q.newest = 65535 then 1 else q.newest + 1, time := uptimeOf tick, content := c }
    (q.post tick c).newest = e.seq ∧ (q.post tick c).ring = (if full then q.ring.drop 1 else q.ring) ++ [e] ∧
      ∀ l,
        let r := q.cursors.get l
        let r' := (q.post tick c).cursors.get l
        let hits (d : Entry) := matchesFilter r.settings.filter d.content = true
        let added := if hits e then 1 else 0
        let drops := full ∧ ∃ d, q.ring.head? = some d ∧ r.cursor = d.seq ∧ hits d
        r'.settings = r.settings ∧
          (∃ lagging, (drops → LaggingAfter r.lagging (r.backlog - 1) lagging) ∧ (¬drops → lagging = r.lagging) ∧
            (hits e → LaggingAfter lagging r'.backlog r'.lagging) ∧ (¬hits e → r'.lagging = lagging)) ∧
          AttentionAfter tick (q.post tick c).ring r.attention r.gatherAt r' ∧
          (∀ d, full → q.ring.head? = some d → r.cursor = d.seq →
            r'.cursor = (if d.seq = 65535 then 1 else d.seq + 1) ∧
              r'.missed = (if hits d then min 255 (r.missed + 1) else r.missed) ∧
              r'.backlog = (if hits d then r.backlog - 1 else r.backlog) + added) ∧
          (¬full ∨ (∀ d, q.ring.head? = some d → r.cursor ≠ d.seq) →
            r'.cursor = r.cursor ∧ r'.missed = r.missed ∧ r'.backlog = r.backlog + added)

/-- R89: a START entry matches every filter; any other matches when its kind is in `kinds`, a zone entry's zone is in
`zone_mask`, and a LEVEL entry has an end at or above `min_level` or at UNKNOWN, STARTING passing by neither. -/
def Obligations.MatchingFollowsTheFilter : Prop :=
  ∀ (f : Filter) (c : Content),
    let kind (code : Nat) := f.kinds.getLsbD (code - 1) = true
    let zone (z : ZoneId) := f.zoneMask.getLsbD z.val = true
    let passes (x : Condition) := x = .unknown ∨ ∃ y, x = .level y ∧ f.minLevel.rank ≤ y.rank
    matchesFilter f c = true ↔
      match c with
      | .start _ _ => True
      | .level z old new _ _ _ _ _ _ => kind 2 ∧ zone z ∧ (passes old ∨ passes new)
      | .probeFault _ _ => kind 3
      | .probeOk _ => kind 4
      | .config (.zone z _) _ => kind 5 ∧ zone z
      | .config _ _ => kind 5
      | .hold z _ _ _ => kind 6 ∧ zone z
      | .holdEnd z _ _ => kind 7 ∧ zone z
      | .ack z _ _ => kind 8 ∧ zone z
      | .output _ _ _ _ => kind 9
      | .claimEnd _ _ _ => kind 10
      | .store _ => kind 11

/-- EVENTS FETCH: the first n matching entries from the cursor on, or all there are; the cursor after the last one
returned, or one past the newest; `missed` reported and cleared; the backlog less what was returned; `lagging` and
attention from the new backlog. Each entry returned is R170's 14 bytes with each field at its offset (R91, R92, R96 to
R99, R170). -/
def Obligations.FetchReturnsTheNextMatchingEntries : Prop :=
  (∀ e : Entry, e.bytes.length = 14 ∧ HasFields e.bytes (entryFields e)) ∧
  (∀ (ring : List Entry) (cursor : Nat),
    (∀ before e after, ring = before ++ e :: after → e.seq = cursor → (∀ d ∈ before, d.seq ≠ cursor) →
      fromCursor ring cursor = e :: after) ∧
    ((∀ e ∈ ring, e.seq ≠ cursor) → fromCursor ring cursor = [])) ∧
  ∀ (l : Link) (n : Byte) (s : State), Takes l (.eventsFetch l n) s → 1 ≤ n.toNat → n.toNat ≤ 4 →
    let r := s.cursor l
    let ahead := fromCursor s.queue.ring r.cursor
    let hits (e : Entry) := matchesFilter r.settings.filter e.content
    ∃ t got passed left, exec (.eventsFetch l n) s = .next t ∧ ChangesOnly [.queue, .links] s t ∧ OnlyCursor l s t ∧
      ahead = passed ++ left ∧ got = passed.filter hits ∧ got = (ahead.filter hits).take n.toNat ∧
      (got.length = n.toNat → ∃ e, passed.getLast? = some e ∧ hits e = true) ∧
      (got.length < n.toNat → left = []) ∧
      (t.cursor l).cursor = (match left with
        | e :: _ => e.seq
        | [] => if s.queue.newest = 65535 then 1 else s.queue.newest + 1) ∧
      (t.cursor l).missed = 0 ∧ (t.cursor l).backlog = r.backlog - got.length ∧
      (t.cursor l).settings = r.settings ∧ LaggingAfter r.lagging (r.backlog - got.length) (t.cursor l).lagging ∧
      AttentionAfter s.tick s.queue.ring r.attention r.gatherAt (t.cursor l) ∧
      Replies l 0x40 .done
        ([byteOf got.length, byteOf r.missed, byteOf (r.backlog - got.length)] ++ got.flatMap Entry.bytes) s t

/-- EVENTS SEEK. OLDEST and NEWEST place the cursor on the oldest entry and one past the newest. A seq at distance d
behind the newest is HELD below the count, OLDER up to 32,767, clearing `missed`, and beyond that refused BAD_ARG. The
backlog is counted afresh, with `lagging` and attention from it. Over 1..65535 the distance is how many postings lie
from the seq to the newest (R93, R94, R96 to R99). -/
def Obligations.SeekPlacesTheCursor : Prop :=
  (∀ n, nextSeq n = if n = 65535 then 1 else n + 1) ∧
  (∀ s d : Nat, 1 ≤ s → s ≤ 65535 → d ≤ 65534 → seqDistance (nextSeq^[d] s) s = d) ∧
  ∀ (l : Link) (target : Byte) (seq : Half) (s : State), Takes l (.eventsSeek l target seq) s → s.QueueOk →
    let q := s.queue
    let r := s.cursor l
    let d := seqDistance q.newest seq.toNat
    let count (cursor : Nat) :=
      ((fromCursor q.ring cursor).filter (fun e => matchesFilter r.settings.filter e.content)).length
    let placed (cursor missed : Nat) (outcome : Byte) :=
      ∃ t, exec (.eventsSeek l target seq) s = .next t ∧ ChangesOnly [.queue, .links] s t ∧ OnlyCursor l s t ∧
        (t.cursor l).cursor = cursor ∧ (t.cursor l).missed = missed ∧ (t.cursor l).settings = r.settings ∧
        (t.cursor l).backlog = count cursor ∧ LaggingAfter r.lagging (count cursor) (t.cursor l).lagging ∧
        AttentionAfter s.tick q.ring r.attention r.gatherAt (t.cursor l) ∧
        Replies l 0x41 .done ([outcome] ++ halfOf cursor ++ [byteOf (count cursor), byteOf missed]) s t
    (target = 0 → ∀ e, q.ring.head? = some e → placed e.seq r.missed 0) ∧
      (target = 1 → placed (nextSeq q.newest) r.missed 1) ∧
      (target = 2 → seq ≠ 0 →
        (d < q.ring.length → placed seq.toNat r.missed 2 ∧ ∃ e ∈ q.ring, e.seq = seq.toNat) ∧
          (q.ring.length ≤ d → d ≤ 32767 → ∀ e, q.ring.head? = some e → placed e.seq 0 3) ∧
          (32768 ≤ d →
            ∃ t, exec (.eventsSeek l target seq) s = .next t ∧ ChangesOnly [.links] s t ∧
              Replies l 0x41 .badArg [] s t))

/-- LINK SET with a level code 0 to 3, CLEAR, WATCH, WARN and WET (R168): filter and gather delay written, backlog
counted afresh under the new filter, then CONFIG of class LINK posted, and DONE with the backlog after it; cursor
record changes of the other links are those of the posting alone (R95; that attention follows only after the posting
is the model's choice 12). -/
def Obligations.LinkSetWritesTheFilter : Prop :=
  ∀ (l : Link) (mask : Byte) (kinds : Half) (level : Byte) (gather : Half) (s : State) (x : Level),
    Takes l (.linkSet l mask kinds level gather) s → kinds.toNat < 2048 → gather.toNat ≤ 2000 →
    (level.toNat = 0 ∧ x = .clear) ∨ (level.toNat = 1 ∧ x = .watch) ∨ (level.toNat = 2 ∧ x = .warn) ∨
      (level.toNat = 3 ∧ x = .wet) →
      let r := s.cursor l
      let settings : LinkSettings :=
        { filter := { zoneMask := mask, kinds := kinds.setWidth 11, minLevel := x }, gatherMs := gather.toNat }
      let count :=
        ((fromCursor s.queue.ring r.cursor).filter (fun e => matchesFilter settings.filter e.content)).length
      let recounted : CursorRecord :=
        { r with
          settings := settings
          backlog := count
          lagging := decide (48 ≤ count) || (r.lagging && decide (32 ≤ count)) }
      ∃ t, exec (.linkSet l mask kinds level gather) s = .next t ∧ ChangesOnly [.queue, .links] s t ∧
        t.queue =
          { s.queue with cursors := s.queue.cursors.set l recounted }.post s.tick (.config (.link l) l) ∧
        Replies l 0x42 .done [byteOf (t.cursor l).backlog] s t

/-- A running gather timer that reaches its expiry stops and asserts attention when the backlog is 1 or more; before
that, or stopped, nothing happens (R96; the late taking and the count in ticks are the model's choices 2 and 4). -/
def Obligations.GatherTimerExpiryAssertsAttention : Prop :=
  ∀ (l : Link) (s : State), s.startup.resetHeld = false →
    let r := s.cursor l
    (∀ due, r.gatherAt = some due → due ≤ s.tick →
      exec (.gatherTimerExpiry l) s =
        .next (s.setCursor l
          { r with gatherAt := none, attention := r.attention || decide (1 ≤ r.backlog) })) ∧
    (r.gatherAt = none ∨ (∃ due, r.gatherAt = some due ∧ s.tick < due) → exec (.gatherTimerExpiry l) s = .next s)

/-- What the ring, the cursors, backlogs, `lagging`, gather timers and attention lines are between whole events is kept
by every step. -/
def Obligations.EventQueueStaysInOrder : Prop :=
  ∀ s t : State, s.QueueOk → step s = .next t → t.QueueOk

/-! ### Outputs -/

/-- R117's table, and R118's with R120: what is wanted and whether it is an override, from the winner's claim, demand
and the safety flag, and what an output does with it. A turn enters the held state when its minimum time is above 0.
R123's table gives the pin's level. The cause of an OUTPUT entry is SAFETY when overridden, else CLAIM of the winner,
else AUTO (R124). -/
def Obligations.WantedStateAndItsTurns : Prop :=
  (∀ c : OutConfig,
    (c.polarity = .activeHigh → c.drive = .pushPull → pinLevel c true = .high ∧ pinLevel c false = .low) ∧
    (c.polarity = .activeHigh → c.drive = .openDrain → pinLevel c true = .undriven ∧ pinLevel c false = .low) ∧
    (c.polarity = .activeLow → c.drive = .pushPull → pinLevel c true = .low ∧ pinLevel c false = .high) ∧
    (c.polarity = .activeLow → c.drive = .openDrain → pinLevel c true = .low ∧ pinLevel c false = .undriven)) ∧
  (∀ r : OutRecord,
    (r.overridden = true → r.source = .safety) ∧
    (∀ l, r.overridden = false → r.winner = some l → r.source = .claim l) ∧
    (r.overridden = false → r.winner = none → r.source = .auto) ∧
    (r.winner = none → r.winningClaim = none) ∧ (∀ l, r.winner = some l → r.winningClaim = r.claims.get l) ∧
    r.formWanted = { r with wanted := r.wantedOf.1, overridden := r.wantedOf.2 } ∧
    (r.outState.isOn = true ↔ r.outState = .onHeld ∨ r.outState = .onFree)) ∧
  ∀ (r : OutRecord) (now : Word) (nowMs : Nat),
    (r.winningClaim = none → r.wantedOf = (r.demand, false)) ∧
      (∀ c, r.winningClaim = some c → c.on = true → r.wantedOf = (true, false)) ∧
      (∀ c, r.winningClaim = some c → c.on = false →
        r.wantedOf = (r.config.safety && r.demand, r.config.safety && r.demand)) ∧
      let blink : Option Blink :=
        if r.config.mode = .blink then
          some { onPhase := true, expiry := (nowMs + r.config.blinkOn * 100) % 4294967296000 }
        else none
      let on : OutRecord :=
        { r with
          outState := if r.config.minOnS = 0 then .onFree else .onHeld
          holdStart := if r.config.minOnS = 0 then none else some now
          blink := blink
          pin := pinLevel r.config true }
      let off : OutRecord :=
        { r with
          outState := if r.config.minOffS = 0 then .offFree else .offHeld
          holdStart := if r.config.minOffS = 0 then none else some now
          blink := none
          pin := pinLevel r.config false }
      (r.wanted = true → r.outState = .offFree ∨ (r.outState = .offHeld ∧ r.config.safety = true) →
          r.act now nowMs = (on, some true)) ∧
        (r.wanted = false → r.outState = .onFree → r.act now nowMs = (off, some false)) ∧
        (r.wanted = true → r.outState = .onHeld ∨ r.outState = .onFree ∨
            (r.outState = .offHeld ∧ r.config.safety = false) → r.act now nowMs = (r, none)) ∧
        (r.wanted = false → r.outState = .offFree ∨ r.outState = .offHeld ∨ r.outState = .onHeld →
          r.act now nowMs = (r, none))

/-- A zone's notice at an output that was given one and has the zone in its mask: demand and wanted state formed again
and acted on, a turn posting OUTPUT with the wanted state's source. A zone outside the mask changes nothing but the
notice taken, and without a notice nothing happens, which is the model's choice 8 (R108, R109, R124). -/
def Obligations.ZoneNoticesFormTheDemand : Prop :=
  ∀ (z : ZoneId) (o : OutId) (s : State), s.startup.resetHeld = false →
    let taken : OutRecord := { s.out o with told := (s.out o).told.erase z }
    (z ∉ (s.out o).told → exec (.zoneEventAtOutput z o) s = .next s) ∧
    (z ∈ (s.out o).told → (s.out o).config.zoneMask.getLsbD z.val = false →
      exec (.zoneEventAtOutput z o) s = .next (s.setOut o taken)) ∧
    (z ∈ (s.out o).told → (s.out o).config.zoneMask.getLsbD z.val = true →
      let formed := ({ taken with demand := demandOf s.zones taken.config }).formWanted
      let acted := formed.act s.now s.nowMs
      ∃ t, exec (.zoneEventAtOutput z o) s = .next t ∧ ChangesOnly [.queue, .outs] s t ∧ OnlyOut o s t ∧
        t.out o = acted.1 ∧ Posts (turnEntry o formed.source acted.2) s t) ∧
    ∀ c : OutConfig, demandOf s.zones c = true ↔
      (c.source = .demand ∧ ∃ y x, c.zoneMask.getLsbD y.val = true ∧ (s.zone y).effective = some x ∧
        c.trigger.rank ≤ x.rank) ∨
      (c.source = .latch ∧ ∃ y, c.zoneMask.getLsbD y.val = true ∧ (s.zone y).latch.isSome = true)

/-- OUT CLAIM past its checks: a claim in the slot ends REPLACED, the slot is written with its expiry, winner and wanted
state are formed and acted on; DONE when the link is the winner, OUTRANKED otherwise, with the replaced flag, the
winner, the wanted and the logical state. The winner is the first link of the rank whose slot holds a claim, and none
when no slot does (R110, R111; that the entries of one event stand next to each other is the model's choice 33). -/
def Obligations.OutClaimStoresTheClaim : Prop :=
  (∀ (rank : Rank) (claims : PerLink (Option Claim)),
    (claims.get rank.first ≠ none → winnerOf rank claims = some rank.first) ∧
    (claims.get rank.first = none → claims.get rank.second ≠ none → winnerOf rank claims = some rank.second) ∧
    (claims.get rank.first = none → claims.get rank.second = none → claims.get rank.third ≠ none →
      winnerOf rank claims = some rank.third) ∧
    (claims.get rank.first = none → claims.get rank.second = none → claims.get rank.third = none →
      winnerOf rank claims = none)) ∧
  ∀ (l : Link) (num state : Byte) (minutes : Half) (s : State) (o : OutId),
    Takes l (.outClaim l num state minutes) s → outOf num = some o → state.toNat ≤ 1 → 1 ≤ minutes.toNat →
    minutes.toNat ≤ 1440 →
      let r := s.out o
      let claims := r.claims.set l
        (some { on := decide (state = 1), expiry := s.now + BitVec.ofNat 32 (60 * minutes.toNat) })
      let formed := ({ r with claims := claims, winner := winnerOf s.rank claims }).formWanted
      let acted := formed.act s.now s.nowMs
      ∃ t, exec (.outClaim l num state minutes) s = .next t ∧ ChangesOnly [.queue, .outs, .links] s t ∧
        OnlyOut o s t ∧ t.out o = acted.1 ∧
        Posts
          ((if (r.claims.get l).isSome then [.claimEnd o l .replaced] else []) ++
            turnEntry o formed.source acted.2) s t ∧
        Replies l 0x32 (if formed.winner = some l then .done else .outranked)
          [flagByte (r.claims.get l).isSome, linkByte formed.winner, flagByte formed.wanted,
            flagByte (t.out o).outState.isOn] s t

/-- The two ends of a claim. OUT DROP: NOTHING for an empty slot; otherwise the slot is cleared, CLAIM_END DROPPED
posted, winner and wanted state formed and acted on, and DONE. Its expiry, once its second is reached and not before,
does the same with CLAIM_END EXPIRED, and a turn it makes carries EXPIRY (R112, R113; that it does so too where a
safety output leaves OFF_HELD for an ON claim, the late taking, 'reached' across the wrap and the entries of one event
next to each other are the model's choices 35, 2, 28 and 33). -/
def Obligations.ClaimsEndByDropAndExpiry : Prop :=
  ∀ (l : Link) (o : OutId) (s : State),
    let r := s.out o
    let claims := r.claims.set l none
    let formed := ({ r with claims := claims, winner := winnerOf s.rank claims }).formWanted
    let acted := formed.act s.now s.nowMs
    let ends (cause : ClaimEndCause) (turn : OutCause) (ps : List Part) (t : State) :=
      ChangesOnly ([.queue, .outs] ++ ps) s t ∧ OnlyOut o s t ∧ t.out o = acted.1 ∧
        Posts (.claimEnd o l cause :: turnEntry o turn acted.2) s t
    (∀ num, Takes l (.outDrop l num) s → outOf num = some o →
      (r.claims.get l = none →
        ∃ t, exec (.outDrop l num) s = .next t ∧ ChangesOnly [.links] s t ∧ Replies l 0x33 .nothing [] s t) ∧
      ∀ c, r.claims.get l = some c →
        ∃ t, exec (.outDrop l num) s = .next t ∧ ends .dropped formed.source [.links] t ∧
          Replies l 0x33 .done [flagByte c.on, linkByte formed.winner, flagByte (t.out o).outState.isOn] s t) ∧
    (s.startup.resetHeld = false →
      (∀ c, r.claims.get l = some c → (s.now - c.expiry).toNat < 2 ^ 31 →
        ∃ t, exec (.claimExpiry o l) s = .next t ∧ ends .expired .expiry [] t) ∧
      (r.claims.get l = none ∨ (∃ c, r.claims.get l = some c ∧ 2 ^ 31 ≤ (s.now - c.expiry).toNat) →
        exec (.claimExpiry o l) s = .next s))

/-- LINK RANK with three different links: the rank written, CONFIG of class RANK posted, then each output's winner and
wanted state formed and acted on, O1 to O4, and DONE with the new rank (R115, R116; that the entries of one event stand
next to each other is the model's choice 33). -/
def Obligations.LinkRankReformsEveryWinner : Prop :=
  ∀ (l x y z : Link) (s : State), x ≠ y → x ≠ z → y ≠ z →
    let code (k : Link) : Byte := BitVec.ofNat 8 (linkCode k)
    let rank : Rank := ⟨x, y, z⟩
    let formed (o : OutId) := ({ s.out o with winner := winnerOf rank (s.out o).claims }).formWanted
    let acted (o : OutId) := (formed o).act s.now s.nowMs
    Takes l (.linkRank l (code x) (code y) (code z)) s →
      ∃ t, exec (.linkRank l (code x) (code y) (code z)) s = .next t ∧
        ChangesOnly [.rank, .queue, .outs, .links] s t ∧ t.rank = rank ∧ (∀ o, t.out o = (acted o).1) ∧
        Posts
          (.config .rank l :: (List.finRange 4).flatMap (fun o => turnEntry o (formed o).source (acted o).2)) s t ∧
        Replies l 0x43 .done [code x, code y, code z] s t

/-- An accepted OUT SET: the configuration written whole as the block gives it, CONFIG posted, a hold whose minimum time
it changed ended at once if its new end is reached or the new time is 0, demand and wanted state formed and acted on,
and the pin set, a new on phase begun while ON in BLINK mode; DONE with demand, wanted and logical state (R121 to R123).
A block with every field within the values of R106 and R107 is read (the entries of one event next to each other and
'reached' across the wrap are the model's choices 33 and 28). -/
def Obligations.OutSetTakesEffectAtOnce : Prop :=
  (∀ b : OutBlock, ¬badOut b → ∃ c, outConfigOf b = some c) ∧
  ∀ (l : Link) (num : Byte) (b : OutBlock) (s : State) (o : OutId) (c : OutConfig),
    Takes l (.outSet l num b) s → outOf num = some o → outConfigOf b = some c →
      let r := s.out o
      let old := if r.outState = .onHeld then r.config.minOnS else r.config.minOffS
      let new := if r.outState = .onHeld then c.minOnS else c.minOffS
      let ends := new ≠ old ∧
        (new = 0 ∨ ∃ start, r.holdStart = some start ∧ (s.now - (start + BitVec.ofNat 32 new)).toNat < 2 ^ 31)
      ∃ resized : OutRecord,
        (r.outState = .onHeld → ends →
          resized = { r with config := c, outState := .onFree, holdStart := none }) ∧
        (r.outState = .offHeld → ends →
          resized = { r with config := c, outState := .offFree, holdStart := none }) ∧
        ((r.outState = .onFree ∨ r.outState = .offFree ∨ ¬ends) → resized = { r with config := c }) ∧
        let formed := ({ resized with demand := demandOf s.zones c }).formWanted
        let acted := formed.act s.now s.nowMs
        let blink : Option Blink :=
          if acted.1.outState.isOn = true ∧ c.mode = .blink then
            some { onPhase := true, expiry := (s.nowMs + c.blinkOn * 100) % 4294967296000 }
          else none
        ∃ t, exec (.outSet l num b) s = .next t ∧ ChangesOnly [.queue, .outs, .links] s t ∧ OnlyOut o s t ∧
          t.out o = { acted.1 with blink := blink, pin := pinLevel c acted.1.outState.isOn } ∧
          outBlockBytes c = encodeOutBlock { b with safety := flagByte (b.safety != 0) } ∧
          Posts (.config (.output o) l :: turnEntry o formed.source acted.2) s t ∧
          Replies l 0x31 .done [flagByte formed.demand, flagByte formed.wanted,
            flagByte (t.out o).outState.isOn] s t

/-- The two timers of an output. A minimum hold that has run its time ends, and the output takes the wanted state as it
then stands, a turn carrying MIN_HOLD_END. A blink phase that has run gives way to the other, each running its own
length, with the pin set. Neither acts before its moment (R119, R123; the late taking, the next phase counted from it,
and 'reached' across the wrap are the model's choices 2, 22 and 28). -/
def Obligations.MinimumHoldsAndBlinkPhasesEnd : Prop :=
  ∀ (o : OutId) (s : State), s.startup.resetHeld = false →
    let r := s.out o
    (∀ start minimum, r.holdStart = some start →
      (r.outState = .onHeld ∧ minimum = r.config.minOnS) ∨ (r.outState = .offHeld ∧ minimum = r.config.minOffS) →
      let reached := (s.now - (start + BitVec.ofNat 32 minimum)).toNat < 2 ^ 31
      let free : OutRecord :=
        { r with outState := if r.outState = .onHeld then .onFree else .offFree, holdStart := none }
      (reached →
        ∃ t, exec (.minHoldExpiry o) s = .next t ∧ ChangesOnly [.queue, .outs] s t ∧ OnlyOut o s t ∧
          t.out o = (free.act s.now s.nowMs).1 ∧
          Posts (turnEntry o .minHoldEnd (free.act s.now s.nowMs).2) s t) ∧
      (¬reached → exec (.minHoldExpiry o) s = .next s)) ∧
    (r.holdStart = none → exec (.minHoldExpiry o) s = .next s) ∧
    (r.blink = none → exec (.blinkPhaseExpiry o) s = .next s) ∧
    ∀ b, r.blink = some b →
      let reached := elapsedMs s.nowMs b.expiry < 2147483648000
      let length := if b.onPhase then r.config.blinkOff else r.config.blinkOn
      let next : OutRecord :=
        { r with blink := some { onPhase := !b.onPhase, expiry := (s.nowMs + length * 100) % 4294967296000 } }
      (reached → exec (.blinkPhaseExpiry o) s =
        .next (s.setOut o { next with
          pin := pinLevel r.config (decide ((r.outState = .onHeld ∨ r.outState = .onFree) ∧
            (r.config.mode = .blink → b.onPhase = false))) })) ∧
      (¬reached → exec (.blinkPhaseExpiry o) s = .next s)

/-- What an output record holds between whole events is kept by every step; among it R120's promise, that a safety
output is logically ON whenever its automatic demand is ON. -/
def Obligations.OutputRecordsStayInOrder : Prop :=
  ∀ s t : State, s.OutsOk → step s = .next t → t.OutsOk

/-! ### Store, start-up and restart -/

/-- SAVE: with the store IDLE, a snapshot of every setting taken, the image marked invalid, WRITING and ACCEPTED; in
WRITING, BUSY and no change. The completion of a write: SAVED with the snapshot as a valid image when the read-back
matches, FAILED with an invalid image otherwise, IDLE, and STORE posted; with no write in flight nothing happens. A
restart that waited for the write alone takes effect in the completion (R172, R173, R178). The model's choices in it:
SAVE and a FAILED completion leave the invalid image's content and check value as they stood (15), the match is the
command's operand (20), the check function is open (14), and the restart's effect is that of RESTART_EFFECT (9). -/
def Obligations.SaveAndItsCompletion : Prop :=
  ∀ s : State,
    (∀ l, Takes l (.save l) s →
      (s.store.state = .idle →
        ∃ t settings, exec (.save l) s = .next t ∧ ChangesOnly [.store, .links] s t ∧
          t.store =
            { s.store with image := { s.store.image with valid := false }, state := .writing settings } ∧
          (∀ n : Fin 16, settings.lines[n] = (s.line n).config) ∧
          (∀ z : Fin 8, settings.zones[z] = (s.zone z).active) ∧
          (∀ o : Fin 4, settings.outs[o] = (s.out o).config) ∧ settings.rank = s.rank ∧
          (∀ k, settings.links.get k = (s.cursor k).settings) ∧ Replies l 0x50 .accepted [] s t) ∧
      (s.store.state ≠ .idle →
        ∃ t, exec (.save l) s = .next t ∧ ChangesOnly [.links] s t ∧ Replies l 0x50 .busy [] s t)) ∧
    (s.startup.resetHeld = false → ∀ ok : Bool,
      (s.store.state = .idle → exec (.storeWriteCompletion ok) s = .next s) ∧
      ∀ settings, s.store.state = .writing settings →
        let stored : Store :=
          if ok then
            { image := { valid := true, content := settings, check := Config.checkValue settings }, state := .idle,
              lastResult := some .saved }
          else
            { image := { s.store.image with valid := false }, state := .idle, lastResult := some .failed }
        let written : State :=
          { s with
            store := stored
            queue := s.queue.post s.tick (.store (if ok then .saved else .failed)) }
        ((∀ p, s.startup.restart = some p → p.responseEnded = false) →
          exec (.storeWriteCompletion ok) s = .next written) ∧
        (∀ p, s.startup.restart = some p → p.responseEnded = true →
          exec (.storeWriteCompletion ok) s = exec .restartEffect written))

/-- Full reset. The settings come from the image when it is valid, its check value agrees and its settings are within
their rules, and are the defaults otherwise; every line, zone, output, link and cursor record has the values of its
rule, written out, START is posted as seq 1 at uptime 0, each output whose demand is ON then turns ON with cause AUTO,
O1 to O4, and the rest have their pins inactive; the warm-up runs 4 s from uptime 0, and a write in flight leaves the
image invalid (R23, R102, R126, R147, R159, R174 to R176). The model's choices in it: completions in transit are
dropped (7), notices not taken are cleared (8), a stopped write leaves the image's content as it was (15), a refused
image keeps its valid mark as it was (36), the check function is open (14), the warm-up is counted in ticks (4), and
an input pin keeps the level the board gives it (17). -/
def Obligations.FullResetLoadsAndStarts : Prop :=
  ∀ (powerRose : Bool) (straps : BitVec 2) (s : State),
    let image : Image :=
      { s.store.image with valid := s.store.image.valid && decide (s.store.state = .idle) }
    let accepted :=
      image.valid = true ∧ image.check = Config.checkValue image.content ∧ WithinTheRules image.content
    ∃ (t : State) (c : Settings) (source : ConfigSource) (on : OutId → Bool) (q : Queue),
      exec (.fullReset powerRose straps) s = .next t ∧
      (accepted → c = image.content ∧ source = .stored) ∧ (¬accepted → AreDefaults c ∧ source = .defaults) ∧
      t.tick = 0 ∧ t.handed = [] ∧ t.rank = c.rank ∧ t.pending = s.pending ∧
      t.store = { image := image, state := .idle, lastResult := none } ∧
      t.startup =
        { warmupAt := some 32000000, probeSupply := true, restart := none,
          causes := .all (if powerRose then 1 else 2), source := source, rate := straps, resetHeld := false } ∧
      (∀ l, t.link l =
        { rx := .hunt, buffer := [], gapAt := none, overrun := false, discarded := 0, serving := none,
          response := none, driverEnable := false }) ∧
      (∀ n : Fin 16, t.line n =
        { config := c.lines[n], state := if c.lines[n].kind = .off then .off else .warmup, window := none,
          sampled := none, pin := (s.line n).pin, stallAt := none, lastQuality := .none, fault := false,
          lastRaw := none, lastGood := none }) ∧
      (∀ z : Fin 8, t.zone z =
        { active := c.zones[z], pendingConfig := none,
          status := if c.zones[z].air ≠ none ∧ c.zones[z].surfaces ≠ [] then .starting else .disabled,
          level := .clear, pending := none, failCount := 0, unknownReason := none, deadline := none, history := [],
          lastEval := none, epoch := 0, hold := none, latch := none }) ∧
      (∀ o : Fin 4, on o = true ↔
        c.outs[o].source = .demand ∧ ∃ z : Fin 8, c.outs[o].zoneMask.getLsbD z.val = true ∧
          (t.zone z).status = .starting ∧ c.outs[o].trigger.rank ≤ c.zones[z].failLevel.rank) ∧
      (∀ o : Fin 4, t.out o =
        { config := c.outs[o], claims := .all none, demand := on o, winner := none, wanted := on o,
          overridden := false,
          outState := if on o then (if c.outs[o].minOnS = 0 then .onFree else .onHeld) else .offFree,
          holdStart := if on o = true ∧ c.outs[o].minOnS ≠ 0 then some 0 else none,
          blink :=
            if on o = true ∧ c.outs[o].mode = .blink then
              some { onPhase := true, expiry := c.outs[o].blinkOn * 100 % 4294967296000 }
            else none,
          pin := pinLevel c.outs[o] (on o), told := [] }) ∧
      q.ring = [{ seq := 1, time := 0, content := .start (if powerRose then .powerOn else .resetPin) source }] ∧
      q.newest = 1 ∧
      (∀ l, q.cursors.get l =
        { cursor := 1, backlog := 1, missed := 0, lagging := false, settings := c.links.get l, gatherAt := none,
          attention := true }) ∧
      t.queue = ((List.finRange 4).flatMap (fun o => if on o then [Content.output o false true .auto] else [])).foldl
        (fun q e => q.post 0 e) q

/-- RESTART is recorded as pending for its link, its response not ended, and ACCEPTED. The effect of a pending restart
whose response has ended, with the store IDLE: every line, zone, cursor and output record with the values of its rule,
written out, START RESTART_x after the last seq posted, then each output whose demand is ON turning ON with cause AUTO,
in the order O1 to O4; settings, epochs, time, seqs, link records, store and warm-up kept. Nothing before both
conditions hold (R24, R80, R103, R127, R148, R178 to R180). The model's choices in it: completions in transit are
dropped (7), the notices an output has not taken are kept (8), the outputs act O1 to O4 (34), stall timers are counted
in ticks (4), and RESTART_EFFECT finds the pending restart that no other event brought about (9). -/
def Obligations.RestartPendsAndClearsTheDynamicState : Prop :=
  ∀ s : State, s.startup.resetHeld = false →
    (∀ l, Takes l (.restart l) s →
      ∃ t, exec (.restart l) s = .next t ∧ ChangesOnly [.startup, .links] s t ∧
        t.startup = { s.startup with restart := some { link := l, responseEnded := false } } ∧
        Replies l 0x51 .accepted [] s t) ∧
    ((∀ p, s.startup.restart = some p → p.responseEnded = false ∨ s.store.state ≠ .idle) →
      exec .restartEffect s = .next s) ∧
    ∀ p, s.startup.restart = some p → p.responseEnded = true → s.store.state = .idle →
      ∃ t, exec .restartEffect s = .next t ∧
        ChangesOnly [.handed, .lines, .zones, .queue, .outs, .startup] s t ∧ t.handed = [] ∧
        t.startup =
          { s.startup with
            restart := none
            causes := s.startup.causes.map (fun c => c ||| BitVec.twoPow 5 (1 + linkCode p.link)) } ∧
        (∀ n, t.line n =
          { s.line n with
            state := if (s.line n).config.kind = .off then .off else if s.warm then .warmup else .acquiring
            window := none
            stallAt :=
              if (s.line n).config.kind = .off ∨ s.warm = true then none
              else some (s.tick + (s.line n).config.stallMs * 8000)
            lastQuality := .none
            fault := false
            lastRaw := none
            lastGood := none }) ∧
        (∀ z,
          let c := (s.zone z).active
          let enabled := c.air ≠ none ∧ c.surfaces ≠ []
          ∃ status deadline,
            t.zone z =
              { active := c, pendingConfig := none, status := status, level := .clear, pending := none, failCount := 0,
                unknownReason := none, deadline := deadline, history := [], lastEval := none,
                epoch := (s.zone z).epoch, hold := none, latch := none } ∧
            (enabled → status = .starting ∧
              (s.warm = true → deadline = none) ∧
              (s.warm = false → deadline = some (s.now + BitVec.ofNat 32 c.staleS))) ∧
            (¬enabled → status = .disabled ∧ deadline = none)) ∧
        ∃ (on : OutId → Bool) (q : Queue),
          (∀ o, on o = true ↔
            (s.out o).config.source = .demand ∧ ∃ z, (s.out o).config.zoneMask.getLsbD z.val = true ∧
              (t.zone z).status = .starting ∧ (s.out o).config.trigger.rank ≤ (s.zone z).active.failLevel.rank) ∧
          (∀ o,
            let c := (s.out o).config
            t.out o =
              { config := c, claims := .all none, demand := on o, winner := none, wanted := on o,
                overridden := false,
                outState := if on o then (if c.minOnS = 0 then .onFree else .onHeld) else .offFree,
                holdStart := if on o = true ∧ c.minOnS ≠ 0 then some s.now else none,
                blink :=
                  if on o = true ∧ c.mode = .blink then
                    some { onPhase := true, expiry := (s.nowMs + c.blinkOn * 100) % 4294967296000 }
                  else none,
                pin := pinLevel c (on o), told := (s.out o).told }) ∧
          let seq := if s.queue.newest = 65535 then 1 else s.queue.newest + 1
          q.ring = [{ seq := seq, time := s.now, content := .start (.restart p.link) s.startup.source }] ∧
            q.newest = seq ∧
            (∀ l, q.cursors.get l =
              { cursor := seq, backlog := 1, missed := 0, lagging := false, settings := (s.cursor l).settings,
                gatherAt := none, attention := true }) ∧
            t.queue =
              ((List.finRange 4).flatMap (fun o => if on o then [Content.output o false true .auto] else [])).foldl
                (fun q e => q.post s.tick e) q

/-- Power failing or the reset pin going low: no output pin driven, attention released, driver enables low, the probe
supply off, and a write in flight stopped with its image invalid, all else as it stood; and from then on no command but
a full reset, or the pin held on, changes anything (R174, R176). The model's choices in it: every other field of every
record stands as it stood while the pin is low (26), a stopped write leaves the invalid image's content and check value
(15), and no other event acts (10). -/
def Obligations.ResetPinStopsThePart : Prop :=
  ∀ s : State,
    (∃ t, exec .resetPinHeldLow s = .next t ∧ ChangesOnly [.store, .startup, .queue, .links, .outs] s t ∧
      t.startup = { s.startup with probeSupply := false, resetHeld := true } ∧
      (s.store.state = .idle → t.store = s.store) ∧
      (s.store.state ≠ .idle →
        t.store = { s.store with image := { s.store.image with valid := false }, state := .idle }) ∧
      t.queue.ring = s.queue.ring ∧ t.queue.newest = s.queue.newest ∧
      (∀ l, t.cursor l = { s.cursor l with attention := false }) ∧
      (∀ l, t.link l = { s.link l with driverEnable := false }) ∧ ∀ o, t.out o = { s.out o with pin := .undriven }) ∧
    (s.startup.resetHeld = true → ∀ i : Instr, (∀ p x, i ≠ .fullReset p x) → i ≠ .resetPinHeldLow →
      exec i s = .next s)

/-- The warm-up runs until it is marked expired. Its end: the mark, lines in WARMUP become ACQUIRING with their stall
timers started, STARTING zones have their deadlines armed; nothing before its 4 s have run (R20, R146, R177; the late
taking and the count in ticks are the model's choices 2 and 4). -/
def Obligations.WarmupExpiryStartsMeasurement : Prop :=
  ∀ s : State, s.startup.resetHeld = false →
    (s.startup.warmupAt = none ∨ (∃ due, s.startup.warmupAt = some due ∧ s.tick < due) →
      exec .warmupExpiry s = .next s) ∧
    (s.warm = true ↔ s.startup.warmupAt ≠ none) ∧
    ∀ due, s.startup.warmupAt = some due → due ≤ s.tick →
      ∃ t, exec .warmupExpiry s = .next t ∧ ChangesOnly [.startup, .lines, .zones] s t ∧
        t.startup = { s.startup with warmupAt := none } ∧
        (∀ n, t.line n =
          if (s.line n).state = .warmup then
            { s.line n with
              state := .acquiring, window := none,
              stallAt := some (s.tick + (s.line n).config.stallMs * 8000) }
          else s.line n) ∧
        ∀ z, t.zone z =
          if (s.zone z).status = .starting then
            { s.zone z with deadline := some (s.now + BitVec.ofNat 32 (s.zone z).active.staleS) }
          else s.zone z

/-- What the link records, the store and start-up control hold between whole events is kept by every step. -/
def Obligations.LinksStoreAndStartupStayInOrder : Prop :=
  ∀ s t : State, step s = .next t → (s.LinksOk → t.LinksOk) ∧ (s.StartupOk → t.StartupOk)

/-- The part right after reset is in order in every block, and a power-on reset of a part that has never completed a
write gives exactly it. The blank image's contents, the straps low and the input pins low are the model's choices 15, 16
and 17; that State.reset is this state is its reading 18. -/
def Obligations.ResetStateIsInOrder : Prop :=
  (State.reset.QueueOk ∧ State.reset.RolesOk ∧ State.reset.ZonesOk ∧ State.reset.LinesOk ∧ State.reset.OutsOk ∧
    State.reset.LinksOk ∧ State.reset.StartupOk) ∧
    exec (.fullReset true 0) State.reset = .next State.reset
end

