-- ==== Sys2Proof/Laws/State.lean ====
section
/-!
SUPPORT. What each update of a record leaves: one lemma for each field and each update, all true by unfolding.
-/

namespace Sys2Proof.Machine

/-! ### Values for each link -/

@[simp] theorem PerLink.get_set_self {α : Type} (p : PerLink α) (l : Link) (v : α) : (p.set l v).get l = v := by
  cases l <;> rfl

theorem PerLink.get_set_of_ne {α : Type} (p : PerLink α) {l k : Link} (v : α) (h : k ≠ l) :
    (p.set l v).get k = p.get k := by
  cases l <;> cases k <;> first | rfl | exact absurd rfl h

theorem PerLink.get_set {α : Type} (p : PerLink α) (l k : Link) (v : α) :
    (p.set l v).get k = if k = l then v else p.get k := by
  cases l <;> cases k <;> rfl

@[simp] theorem PerLink.get_map {α β : Type} (f : α → β) (p : PerLink α) (l : Link) :
    (p.map f).get l = f (p.get l) := by
  cases l <;> rfl

@[simp] theorem PerLink.get_all {α : Type} (v : α) (l : Link) : (PerLink.all v).get l = v := by
  cases l <;> rfl

@[simp] theorem mapEach_getElem {α β : Type} {n : Nat} (f : α → β) (v : Vector α n) (i : Nat) (h : i < n) :
    (mapEach f v)[i] = f v[i] := by
  simp [mapEach]

theorem PerLink.ext_get {α : Type} {p q : PerLink α} (h : ∀ l, p.get l = q.get l) : p = q := by
  have ha := h .a
  have hb := h .b
  have hc := h .c
  cases p
  cases q
  simp_all [PerLink.get]

/-! ### Each update leaves the other fields -/

@[simp] theorem State.setLine_tick (s : State) (n : LineId) (r : LineRecord) : (s.setLine n r).tick = s.tick := rfl

@[simp] theorem State.setLine_handed (s : State) (n : LineId) (r : LineRecord) : (s.setLine n r).handed = s.handed := rfl

@[simp] theorem State.setLine_zones (s : State) (n : LineId) (r : LineRecord) : (s.setLine n r).zones = s.zones := rfl

@[simp] theorem State.setLine_queue (s : State) (n : LineId) (r : LineRecord) : (s.setLine n r).queue = s.queue := rfl

@[simp] theorem State.setLine_outs (s : State) (n : LineId) (r : LineRecord) : (s.setLine n r).outs = s.outs := rfl

@[simp] theorem State.setLine_rank (s : State) (n : LineId) (r : LineRecord) : (s.setLine n r).rank = s.rank := rfl

@[simp] theorem State.setLine_links (s : State) (n : LineId) (r : LineRecord) : (s.setLine n r).links = s.links := rfl

@[simp] theorem State.setLine_store (s : State) (n : LineId) (r : LineRecord) : (s.setLine n r).store = s.store := rfl

@[simp] theorem State.setLine_startup (s : State) (n : LineId) (r : LineRecord) : (s.setLine n r).startup = s.startup := rfl

@[simp] theorem State.setLine_pending (s : State) (n : LineId) (r : LineRecord) : (s.setLine n r).pending = s.pending := rfl

@[simp] theorem State.setLine_zone_kept (s : State) (n : LineId) (r : LineRecord) (y : ZoneId) :
    (s.setLine n r).zone y = s.zone y := rfl

@[simp] theorem State.setLine_out_kept (s : State) (n : LineId) (r : LineRecord) (p : OutId) :
    (s.setLine n r).out p = s.out p := rfl

@[simp] theorem State.setLine_link_kept (s : State) (n : LineId) (r : LineRecord) (k : Link) :
    (s.setLine n r).link k = s.link k := rfl

@[simp] theorem State.setLine_cursor_kept (s : State) (n : LineId) (r : LineRecord) (k : Link) :
    (s.setLine n r).cursor k = s.cursor k := rfl

@[simp] theorem State.setLine_now_kept (s : State) (n : LineId) (r : LineRecord) :
    (s.setLine n r).now = s.now := rfl

@[simp] theorem State.setLine_nowMs_kept (s : State) (n : LineId) (r : LineRecord) :
    (s.setLine n r).nowMs = s.nowMs := rfl

@[simp] theorem State.setLine_warm_kept (s : State) (n : LineId) (r : LineRecord) :
    (s.setLine n r).warm = s.warm := rfl

@[simp] theorem State.setZone_tick (s : State) (z : ZoneId) (r : ZoneRecord) : (s.setZone z r).tick = s.tick := rfl

@[simp] theorem State.setZone_lines (s : State) (z : ZoneId) (r : ZoneRecord) : (s.setZone z r).lines = s.lines := rfl

@[simp] theorem State.setZone_handed (s : State) (z : ZoneId) (r : ZoneRecord) : (s.setZone z r).handed = s.handed := rfl

@[simp] theorem State.setZone_queue (s : State) (z : ZoneId) (r : ZoneRecord) : (s.setZone z r).queue = s.queue := rfl

@[simp] theorem State.setZone_outs (s : State) (z : ZoneId) (r : ZoneRecord) : (s.setZone z r).outs = s.outs := rfl

@[simp] theorem State.setZone_rank (s : State) (z : ZoneId) (r : ZoneRecord) : (s.setZone z r).rank = s.rank := rfl

@[simp] theorem State.setZone_links (s : State) (z : ZoneId) (r : ZoneRecord) : (s.setZone z r).links = s.links := rfl

@[simp] theorem State.setZone_store (s : State) (z : ZoneId) (r : ZoneRecord) : (s.setZone z r).store = s.store := rfl

@[simp] theorem State.setZone_startup (s : State) (z : ZoneId) (r : ZoneRecord) : (s.setZone z r).startup = s.startup := rfl

@[simp] theorem State.setZone_pending (s : State) (z : ZoneId) (r : ZoneRecord) : (s.setZone z r).pending = s.pending := rfl

@[simp] theorem State.setZone_line_kept (s : State) (z : ZoneId) (r : ZoneRecord) (m : LineId) :
    (s.setZone z r).line m = s.line m := rfl

@[simp] theorem State.setZone_out_kept (s : State) (z : ZoneId) (r : ZoneRecord) (p : OutId) :
    (s.setZone z r).out p = s.out p := rfl

@[simp] theorem State.setZone_link_kept (s : State) (z : ZoneId) (r : ZoneRecord) (k : Link) :
    (s.setZone z r).link k = s.link k := rfl

@[simp] theorem State.setZone_cursor_kept (s : State) (z : ZoneId) (r : ZoneRecord) (k : Link) :
    (s.setZone z r).cursor k = s.cursor k := rfl

@[simp] theorem State.setZone_now_kept (s : State) (z : ZoneId) (r : ZoneRecord) :
    (s.setZone z r).now = s.now := rfl

@[simp] theorem State.setZone_nowMs_kept (s : State) (z : ZoneId) (r : ZoneRecord) :
    (s.setZone z r).nowMs = s.nowMs := rfl

@[simp] theorem State.setZone_warm_kept (s : State) (z : ZoneId) (r : ZoneRecord) :
    (s.setZone z r).warm = s.warm := rfl

@[simp] theorem State.setOut_tick (s : State) (o : OutId) (r : OutRecord) : (s.setOut o r).tick = s.tick := rfl

@[simp] theorem State.setOut_lines (s : State) (o : OutId) (r : OutRecord) : (s.setOut o r).lines = s.lines := rfl

@[simp] theorem State.setOut_handed (s : State) (o : OutId) (r : OutRecord) : (s.setOut o r).handed = s.handed := rfl

@[simp] theorem State.setOut_zones (s : State) (o : OutId) (r : OutRecord) : (s.setOut o r).zones = s.zones := rfl

@[simp] theorem State.setOut_queue (s : State) (o : OutId) (r : OutRecord) : (s.setOut o r).queue = s.queue := rfl

@[simp] theorem State.setOut_rank (s : State) (o : OutId) (r : OutRecord) : (s.setOut o r).rank = s.rank := rfl

@[simp] theorem State.setOut_links (s : State) (o : OutId) (r : OutRecord) : (s.setOut o r).links = s.links := rfl

@[simp] theorem State.setOut_store (s : State) (o : OutId) (r : OutRecord) : (s.setOut o r).store = s.store := rfl

@[simp] theorem State.setOut_startup (s : State) (o : OutId) (r : OutRecord) : (s.setOut o r).startup = s.startup := rfl

@[simp] theorem State.setOut_pending (s : State) (o : OutId) (r : OutRecord) : (s.setOut o r).pending = s.pending := rfl

@[simp] theorem State.setOut_line_kept (s : State) (o : OutId) (r : OutRecord) (m : LineId) :
    (s.setOut o r).line m = s.line m := rfl

@[simp] theorem State.setOut_zone_kept (s : State) (o : OutId) (r : OutRecord) (y : ZoneId) :
    (s.setOut o r).zone y = s.zone y := rfl

@[simp] theorem State.setOut_link_kept (s : State) (o : OutId) (r : OutRecord) (k : Link) :
    (s.setOut o r).link k = s.link k := rfl

@[simp] theorem State.setOut_cursor_kept (s : State) (o : OutId) (r : OutRecord) (k : Link) :
    (s.setOut o r).cursor k = s.cursor k := rfl

@[simp] theorem State.setOut_now_kept (s : State) (o : OutId) (r : OutRecord) :
    (s.setOut o r).now = s.now := rfl

@[simp] theorem State.setOut_nowMs_kept (s : State) (o : OutId) (r : OutRecord) :
    (s.setOut o r).nowMs = s.nowMs := rfl

@[simp] theorem State.setOut_warm_kept (s : State) (o : OutId) (r : OutRecord) :
    (s.setOut o r).warm = s.warm := rfl

@[simp] theorem State.setLink_tick (s : State) (l : Link) (r : LinkRecord) : (s.setLink l r).tick = s.tick := rfl

@[simp] theorem State.setLink_lines (s : State) (l : Link) (r : LinkRecord) : (s.setLink l r).lines = s.lines := rfl

@[simp] theorem State.setLink_handed (s : State) (l : Link) (r : LinkRecord) : (s.setLink l r).handed = s.handed := rfl

@[simp] theorem State.setLink_zones (s : State) (l : Link) (r : LinkRecord) : (s.setLink l r).zones = s.zones := rfl

@[simp] theorem State.setLink_queue (s : State) (l : Link) (r : LinkRecord) : (s.setLink l r).queue = s.queue := rfl

@[simp] theorem State.setLink_outs (s : State) (l : Link) (r : LinkRecord) : (s.setLink l r).outs = s.outs := rfl

@[simp] theorem State.setLink_rank (s : State) (l : Link) (r : LinkRecord) : (s.setLink l r).rank = s.rank := rfl

@[simp] theorem State.setLink_store (s : State) (l : Link) (r : LinkRecord) : (s.setLink l r).store = s.store := rfl

@[simp] theorem State.setLink_startup (s : State) (l : Link) (r : LinkRecord) : (s.setLink l r).startup = s.startup := rfl

@[simp] theorem State.setLink_pending (s : State) (l : Link) (r : LinkRecord) : (s.setLink l r).pending = s.pending := rfl

@[simp] theorem State.setLink_line_kept (s : State) (l : Link) (r : LinkRecord) (m : LineId) :
    (s.setLink l r).line m = s.line m := rfl

@[simp] theorem State.setLink_zone_kept (s : State) (l : Link) (r : LinkRecord) (y : ZoneId) :
    (s.setLink l r).zone y = s.zone y := rfl

@[simp] theorem State.setLink_out_kept (s : State) (l : Link) (r : LinkRecord) (p : OutId) :
    (s.setLink l r).out p = s.out p := rfl

@[simp] theorem State.setLink_cursor_kept (s : State) (l : Link) (r : LinkRecord) (k : Link) :
    (s.setLink l r).cursor k = s.cursor k := rfl

@[simp] theorem State.setLink_now_kept (s : State) (l : Link) (r : LinkRecord) :
    (s.setLink l r).now = s.now := rfl

@[simp] theorem State.setLink_nowMs_kept (s : State) (l : Link) (r : LinkRecord) :
    (s.setLink l r).nowMs = s.nowMs := rfl

@[simp] theorem State.setLink_warm_kept (s : State) (l : Link) (r : LinkRecord) :
    (s.setLink l r).warm = s.warm := rfl

@[simp] theorem State.setCursor_tick (s : State) (l : Link) (r : CursorRecord) : (s.setCursor l r).tick = s.tick := rfl

@[simp] theorem State.setCursor_lines (s : State) (l : Link) (r : CursorRecord) : (s.setCursor l r).lines = s.lines := rfl

@[simp] theorem State.setCursor_handed (s : State) (l : Link) (r : CursorRecord) : (s.setCursor l r).handed = s.handed := rfl

@[simp] theorem State.setCursor_zones (s : State) (l : Link) (r : CursorRecord) : (s.setCursor l r).zones = s.zones := rfl

@[simp] theorem State.setCursor_outs (s : State) (l : Link) (r : CursorRecord) : (s.setCursor l r).outs = s.outs := rfl

@[simp] theorem State.setCursor_rank (s : State) (l : Link) (r : CursorRecord) : (s.setCursor l r).rank = s.rank := rfl

@[simp] theorem State.setCursor_links (s : State) (l : Link) (r : CursorRecord) : (s.setCursor l r).links = s.links := rfl

@[simp] theorem State.setCursor_store (s : State) (l : Link) (r : CursorRecord) : (s.setCursor l r).store = s.store := rfl

@[simp] theorem State.setCursor_startup (s : State) (l : Link) (r : CursorRecord) : (s.setCursor l r).startup = s.startup := rfl

@[simp] theorem State.setCursor_pending (s : State) (l : Link) (r : CursorRecord) : (s.setCursor l r).pending = s.pending := rfl

@[simp] theorem State.setCursor_line_kept (s : State) (l : Link) (r : CursorRecord) (m : LineId) :
    (s.setCursor l r).line m = s.line m := rfl

@[simp] theorem State.setCursor_zone_kept (s : State) (l : Link) (r : CursorRecord) (y : ZoneId) :
    (s.setCursor l r).zone y = s.zone y := rfl

@[simp] theorem State.setCursor_out_kept (s : State) (l : Link) (r : CursorRecord) (p : OutId) :
    (s.setCursor l r).out p = s.out p := rfl

@[simp] theorem State.setCursor_link_kept (s : State) (l : Link) (r : CursorRecord) (k : Link) :
    (s.setCursor l r).link k = s.link k := rfl

@[simp] theorem State.setCursor_now_kept (s : State) (l : Link) (r : CursorRecord) :
    (s.setCursor l r).now = s.now := rfl

@[simp] theorem State.setCursor_nowMs_kept (s : State) (l : Link) (r : CursorRecord) :
    (s.setCursor l r).nowMs = s.nowMs := rfl

@[simp] theorem State.setCursor_warm_kept (s : State) (l : Link) (r : CursorRecord) :
    (s.setCursor l r).warm = s.warm := rfl

@[simp] theorem State.post_tick (s : State) (c : Content) : (s.post c).tick = s.tick := rfl

@[simp] theorem State.post_lines (s : State) (c : Content) : (s.post c).lines = s.lines := rfl

@[simp] theorem State.post_handed (s : State) (c : Content) : (s.post c).handed = s.handed := rfl

@[simp] theorem State.post_zones (s : State) (c : Content) : (s.post c).zones = s.zones := rfl

@[simp] theorem State.post_outs (s : State) (c : Content) : (s.post c).outs = s.outs := rfl

@[simp] theorem State.post_rank (s : State) (c : Content) : (s.post c).rank = s.rank := rfl

@[simp] theorem State.post_links (s : State) (c : Content) : (s.post c).links = s.links := rfl

@[simp] theorem State.post_store (s : State) (c : Content) : (s.post c).store = s.store := rfl

@[simp] theorem State.post_startup (s : State) (c : Content) : (s.post c).startup = s.startup := rfl

@[simp] theorem State.post_pending (s : State) (c : Content) : (s.post c).pending = s.pending := rfl

@[simp] theorem State.post_line_kept (s : State) (c : Content) (m : LineId) :
    (s.post c).line m = s.line m := rfl

@[simp] theorem State.post_zone_kept (s : State) (c : Content) (y : ZoneId) :
    (s.post c).zone y = s.zone y := rfl

@[simp] theorem State.post_out_kept (s : State) (c : Content) (p : OutId) :
    (s.post c).out p = s.out p := rfl

@[simp] theorem State.post_link_kept (s : State) (c : Content) (k : Link) :
    (s.post c).link k = s.link k := rfl

@[simp] theorem State.post_now_kept (s : State) (c : Content) :
    (s.post c).now = s.now := rfl

@[simp] theorem State.post_nowMs_kept (s : State) (c : Content) :
    (s.post c).nowMs = s.nowMs := rfl

@[simp] theorem State.post_warm_kept (s : State) (c : Content) :
    (s.post c).warm = s.warm := rfl

@[simp] theorem State.tell_tick (s : State) (z : ZoneId) : (s.tell z).tick = s.tick := rfl

@[simp] theorem State.tell_lines (s : State) (z : ZoneId) : (s.tell z).lines = s.lines := rfl

@[simp] theorem State.tell_handed (s : State) (z : ZoneId) : (s.tell z).handed = s.handed := rfl

@[simp] theorem State.tell_zones (s : State) (z : ZoneId) : (s.tell z).zones = s.zones := rfl

@[simp] theorem State.tell_queue (s : State) (z : ZoneId) : (s.tell z).queue = s.queue := rfl

@[simp] theorem State.tell_rank (s : State) (z : ZoneId) : (s.tell z).rank = s.rank := rfl

@[simp] theorem State.tell_links (s : State) (z : ZoneId) : (s.tell z).links = s.links := rfl

@[simp] theorem State.tell_store (s : State) (z : ZoneId) : (s.tell z).store = s.store := rfl

@[simp] theorem State.tell_startup (s : State) (z : ZoneId) : (s.tell z).startup = s.startup := rfl

@[simp] theorem State.tell_pending (s : State) (z : ZoneId) : (s.tell z).pending = s.pending := rfl

@[simp] theorem State.tell_line_kept (s : State) (z : ZoneId) (m : LineId) :
    (s.tell z).line m = s.line m := rfl

@[simp] theorem State.tell_zone_kept (s : State) (z : ZoneId) (y : ZoneId) :
    (s.tell z).zone y = s.zone y := rfl

@[simp] theorem State.tell_link_kept (s : State) (z : ZoneId) (k : Link) :
    (s.tell z).link k = s.link k := rfl

@[simp] theorem State.tell_cursor_kept (s : State) (z : ZoneId) (k : Link) :
    (s.tell z).cursor k = s.cursor k := rfl

@[simp] theorem State.tell_now_kept (s : State) (z : ZoneId) :
    (s.tell z).now = s.now := rfl

@[simp] theorem State.tell_nowMs_kept (s : State) (z : ZoneId) :
    (s.tell z).nowMs = s.nowMs := rfl

@[simp] theorem State.tell_warm_kept (s : State) (z : ZoneId) :
    (s.tell z).warm = s.warm := rfl

/-! ### The record written, and the others -/

theorem State.setLine_line (s : State) (n : LineId) (r : LineRecord) (m : LineId) :
    (s.setLine n r).line m = if m = n then r else s.line m := by
  by_cases h : m = n
  · subst h
    simp [State.setLine, State.line]
  · have h' : (n : Nat) ≠ m := fun e => h (Fin.ext e.symm)
    simp [State.setLine, State.line, h, Vector.getElem_set_ne _ _ h']

@[simp] theorem State.setLine_line_self (s : State) (n : LineId) (r : LineRecord) : (s.setLine n r).line n = r := by
  simp [State.setLine_line]

theorem State.setLine_line_other (s : State) (n : LineId) (r : LineRecord) {m : LineId} (h : m ≠ n) :
    (s.setLine n r).line m = s.line m := by
  simp [State.setLine_line, h]

theorem State.setZone_zone (s : State) (n : ZoneId) (r : ZoneRecord) (m : ZoneId) :
    (s.setZone n r).zone m = if m = n then r else s.zone m := by
  by_cases h : m = n
  · subst h
    simp [State.setZone, State.zone]
  · have h' : (n : Nat) ≠ m := fun e => h (Fin.ext e.symm)
    simp [State.setZone, State.zone, h, Vector.getElem_set_ne _ _ h']

@[simp] theorem State.setZone_zone_self (s : State) (n : ZoneId) (r : ZoneRecord) : (s.setZone n r).zone n = r := by
  simp [State.setZone_zone]

theorem State.setZone_zone_other (s : State) (n : ZoneId) (r : ZoneRecord) {m : ZoneId} (h : m ≠ n) :
    (s.setZone n r).zone m = s.zone m := by
  simp [State.setZone_zone, h]

theorem State.setOut_out (s : State) (n : OutId) (r : OutRecord) (m : OutId) :
    (s.setOut n r).out m = if m = n then r else s.out m := by
  by_cases h : m = n
  · subst h
    simp [State.setOut, State.out]
  · have h' : (n : Nat) ≠ m := fun e => h (Fin.ext e.symm)
    simp [State.setOut, State.out, h, Vector.getElem_set_ne _ _ h']

@[simp] theorem State.setOut_out_self (s : State) (n : OutId) (r : OutRecord) : (s.setOut n r).out n = r := by
  simp [State.setOut_out]

theorem State.setOut_out_other (s : State) (n : OutId) (r : OutRecord) {m : OutId} (h : m ≠ n) :
    (s.setOut n r).out m = s.out m := by
  simp [State.setOut_out, h]

theorem State.setLink_link (s : State) (l : Link) (r : LinkRecord) (k : Link) :
    (s.setLink l r).link k = if k = l then r else s.link k := PerLink.get_set _ _ _ _

@[simp] theorem State.setLink_link_self (s : State) (l : Link) (r : LinkRecord) : (s.setLink l r).link l = r :=
  PerLink.get_set_self _ _ _

theorem State.setLink_link_other (s : State) (l : Link) (r : LinkRecord) {k : Link} (h : k ≠ l) :
    (s.setLink l r).link k = s.link k := PerLink.get_set_of_ne _ _ h

theorem State.setCursor_cursor (s : State) (l : Link) (r : CursorRecord) (k : Link) :
    (s.setCursor l r).cursor k = if k = l then r else s.cursor k := PerLink.get_set _ _ _ _

@[simp] theorem State.setCursor_cursor_self (s : State) (l : Link) (r : CursorRecord) :
    (s.setCursor l r).cursor l = r := PerLink.get_set_self _ _ _

theorem State.setCursor_cursor_other (s : State) (l : Link) (r : CursorRecord) {k : Link} (h : k ≠ l) :
    (s.setCursor l r).cursor k = s.cursor k := PerLink.get_set_of_ne _ _ h

@[simp] theorem State.setCursor_ring (s : State) (l : Link) (r : CursorRecord) :
    (s.setCursor l r).queue.ring = s.queue.ring := rfl

@[simp] theorem State.setCursor_newest (s : State) (l : Link) (r : CursorRecord) :
    (s.setCursor l r).queue.newest = s.queue.newest := rfl

theorem State.post_queue (s : State) (c : Content) : (s.post c).queue = s.queue.post s.tick c := rfl

theorem State.tell_out (s : State) (z : ZoneId) (o : OutId) :
    (s.tell z).out o = { s.out o with told := (s.out o).told ++ [z] } := by
  simp [State.tell, State.out]

end Sys2Proof.Machine
end

