-- ==== Sys2Proof/Laws/Requests.lean ====
section
/-!
SUPPORT. How a request is answered, said once: when it is taken, what the response leaves, and the frame lemmas the
statements' proofs cite.
-/

namespace Sys2Proof.Machine

/-! ### Frames -/

theorem ChangesOnly.mono {ps qs : List Part} {s t : State} (h : ChangesOnly ps s t) (sub : ∀ p ∈ ps, p ∈ qs) :
    ChangesOnly qs s t := fun p hp => h p (fun hq => hp (sub p hq))

theorem ChangesOnly.trans {ps qs : List Part} {s t u : State} (h : ChangesOnly ps s t) (k : ChangesOnly qs t u) :
    ChangesOnly (ps ++ qs) s u := by
  intro p hp
  have h1 := h p (fun x => hp (List.mem_append_left _ x))
  have h2 := k p (fun x => hp (List.mem_append_right _ x))
  cases p <;> exact h2.trans h1

theorem ChangesOnly.refl (ps : List Part) (s : State) : ChangesOnly ps s s := by
  intro p _
  cases p <;> rfl

/-! ### One write at a time: each base frame, which the frames of the operations are composed of -/

/-- A line record written changes the lines alone. -/
theorem State.setLine_changesOnly (s : State) (n : LineId) (r : LineRecord) :
    ChangesOnly [.lines] s (s.setLine n r) := by
  intro p hp
  cases p <;> first | rfl | exact absurd (by decide) hp

/-- A zone record written changes the zones alone. -/
theorem State.setZone_changesOnly (s : State) (z : ZoneId) (r : ZoneRecord) :
    ChangesOnly [.zones] s (s.setZone z r) := by
  intro p hp
  cases p <;> first | rfl | exact absurd (by decide) hp

/-- An output record written changes the outputs alone. -/
theorem State.setOut_changesOnly (s : State) (o : OutId) (r : OutRecord) : ChangesOnly [.outs] s (s.setOut o r) := by
  intro p hp
  cases p <;> first | rfl | exact absurd (by decide) hp

/-- A link record written changes the links alone. -/
theorem State.setLink_changesOnly (s : State) (l : Link) (r : LinkRecord) : ChangesOnly [.links] s (s.setLink l r) := by
  intro p hp
  cases p <;> first | rfl | exact absurd (by decide) hp

/-- A cursor record written changes the event queue alone. -/
theorem State.setCursor_changesOnly (s : State) (l : Link) (r : CursorRecord) :
    ChangesOnly [.queue] s (s.setCursor l r) := by
  intro p hp
  cases p <;> first | rfl | exact absurd (by decide) hp

/-- A posting changes the event queue alone. -/
theorem State.post_changesOnly (s : State) (c : Content) : ChangesOnly [.queue] s (s.post c) := by
  intro p hp
  cases p <;> first | rfl | exact absurd (by decide) hp

/-- A posting, or none, changes the event queue at most. -/
theorem State.postOpt_changesOnly (s : State) (c : Option Content) : ChangesOnly [.queue] s (s.postOpt c) := by
  rcases c with - | c
  · exact .refl _ _
  · exact s.post_changesOnly c

/-- A zone's notice changes the outputs alone. -/
theorem State.tell_changesOnly (s : State) (z : ZoneId) : ChangesOnly [.outs] s (s.tell z) := by
  intro p hp
  cases p <;> first | rfl | exact absurd (by decide) hp

/-- A completion handed over changes the list of completions alone. -/
theorem State.hand_changesOnly (s : State) (cs : List Completion) :
    ChangesOnly [.handed] s ({ s with handed := cs }) := by
  intro p hp
  cases p <;> first | rfl | exact absurd (by decide) hp

/-! ### The response -/

@[simp] theorem State.respond_tick (s : State) (l : Link) (k : Byte) (c : StatusCode) (b : List Byte) :
    (s.respond l k c b).tick = s.tick := rfl

@[simp] theorem State.respond_lines (s : State) (l : Link) (k : Byte) (c : StatusCode) (b : List Byte) :
    (s.respond l k c b).lines = s.lines := rfl

@[simp] theorem State.respond_handed (s : State) (l : Link) (k : Byte) (c : StatusCode) (b : List Byte) :
    (s.respond l k c b).handed = s.handed := rfl

@[simp] theorem State.respond_zones (s : State) (l : Link) (k : Byte) (c : StatusCode) (b : List Byte) :
    (s.respond l k c b).zones = s.zones := rfl

@[simp] theorem State.respond_queue (s : State) (l : Link) (k : Byte) (c : StatusCode) (b : List Byte) :
    (s.respond l k c b).queue = s.queue := rfl

@[simp] theorem State.respond_outs (s : State) (l : Link) (k : Byte) (c : StatusCode) (b : List Byte) :
    (s.respond l k c b).outs = s.outs := rfl

@[simp] theorem State.respond_rank (s : State) (l : Link) (k : Byte) (c : StatusCode) (b : List Byte) :
    (s.respond l k c b).rank = s.rank := rfl

@[simp] theorem State.respond_store (s : State) (l : Link) (k : Byte) (c : StatusCode) (b : List Byte) :
    (s.respond l k c b).store = s.store := rfl

@[simp] theorem State.respond_startup (s : State) (l : Link) (k : Byte) (c : StatusCode) (b : List Byte) :
    (s.respond l k c b).startup = s.startup := rfl

@[simp] theorem State.respond_pending (s : State) (l : Link) (k : Byte) (c : StatusCode) (b : List Byte) :
    (s.respond l k c b).pending = s.pending := rfl

@[simp] theorem State.respond_line (s : State) (l : Link) (k : Byte) (c : StatusCode) (b : List Byte) (n : LineId) :
    (s.respond l k c b).line n = s.line n := rfl

@[simp] theorem State.respond_zone (s : State) (l : Link) (k : Byte) (c : StatusCode) (b : List Byte) (z : ZoneId) :
    (s.respond l k c b).zone z = s.zone z := rfl

@[simp] theorem State.respond_out (s : State) (l : Link) (k : Byte) (c : StatusCode) (b : List Byte) (o : OutId) :
    (s.respond l k c b).out o = s.out o := rfl

@[simp] theorem State.respond_cursor (s : State) (l : Link) (k : Byte) (c : StatusCode) (b : List Byte) (m : Link) :
    (s.respond l k c b).cursor m = s.cursor m := rfl

/-- A response to a request changes nothing but links. -/
theorem State.respond_changesOnly (s : State) (l : Link) (k : Byte) (c : StatusCode) (b : List Byte) :
    ChangesOnly [.links] s (s.respond l k c b) :=
  s.setLink_changesOnly l _

/-- What a response says of its link, from the state before the request, where the request left the link records. -/
theorem State.respond_replies {s a : State} (l : Link) (k : Byte) (c : StatusCode) (b : List Byte)
    (h : a.links = s.links) : Replies l k c b s (a.respond l k c b) := by
  have hl : ∀ m, a.link m = s.link m := fun m => congrArg (fun p => PerLink.get p m) h
  refine ⟨?_, ?_⟩
  · rw [State.respond, State.setLink_link_self, hl]
    rfl
  · intro m hm
    rw [State.respond, State.setLink_link_other _ _ _ hm, hl]

/-! ### Requests taken, and the others -/

theorem Takes.notHeld {l : Link} {i : Instr} {s : State} (h : Takes l i s) : s.startup.resetHeld = false := h.1

theorem Takes.admission {l : Link} {i : Instr} {s : State} (h : Takes l i s) : s.admission l i = .taken := by
  obtain ⟨-, ⟨hr, hw, hp⟩ | ⟨hr, hs, hp⟩⟩ := h
  · rcases hp with hp | hp
    · simp [State.admission, hr, hw, hp]
    · subst hp
      simp [State.admission, hr, hw]
  · by_cases hq : s.startup.restart.isSome = true
    · have : i ≠ .restart l := fun e => hp ⟨hq, e⟩
      simp [State.admission, hr, hs, this]
    · simp only [Bool.not_eq_true] at hq
      simp [State.admission, hr, hs, hq]

/-- A command acts on a part that is not held in reset. -/
theorem State.unlessHeld_of (s : State) (f : State → State) (h : s.startup.resetHeld = false) :
    s.unlessHeld f = f s := by
  simp [State.unlessHeld, h]

/-- A command does nothing on a part held in reset. -/
theorem State.unlessHeld_held (s : State) (f : State → State) (h : s.startup.resetHeld = true) :
    s.unlessHeld f = s := by
  simp [State.unlessHeld, h]

/-- A request taken: its owner acts and its answer is sent. -/
theorem serveRequest_taken {l : Link} {i : Instr} {s : State} (h : Takes l i s) (k : RequestKind)
    (act : State → Answer) :
    serveRequest l k i act s = .next ((act s).state.respond l k.code (act s).status (act s).body) := by
  rw [serveRequest, State.unlessHeld_of _ _ h.notHeld, State.serve, h.admission]

/-- A request taken and refused by its owner: its answer is sent and nothing else changes. -/
theorem serveRequest_refused {l : Link} {i : Instr} {s : State} (h : Takes l i s) (k : RequestKind)
    (act : State → Answer) (c : StatusCode) (b : List Byte) (ha : act s = { state := s, status := c, body := b }) :
    ∃ t, serveRequest l k i act s = .next t ∧ ChangesOnly [.links] s t ∧ Replies l k.code c b s t :=
  ⟨_, serveRequest_taken h k act, by rw [ha]; exact s.respond_changesOnly l _ _ _,
    by rw [ha]; exact State.respond_replies l _ _ _ rfl⟩

/-- Everything a request command can do to the state, by its admission. -/
theorem State.serve_cases (l : Link) (k : RequestKind) (i : Instr) (act : State → Answer) (s : State) :
    (s.admission l i = .taken ∧
        s.serve l k i act = (act s).state.respond l k.code (act s).status (act s).body) ∨
      (s.admission l i = .restarting ∧ s.serve l k i act = s.respond l k.code .restarting []) ∨
      (s.admission l i = .badLength ∧ s.serve l k i act = s.respond l k.code .badLength []) ∨
      (s.admission l i = .overrun ∧ s.serve l k i act = s.setLink l { s.link l with overrun := true }) ∨
      (s.admission l i = .lost ∧ s.serve l k i act = s) := by
  cases h : s.admission l i <;> simp [State.serve, h]

end Sys2Proof.Machine
end

