-- ==== Sys2Proof/Laws/Bodies.lean ====
section
/-!
SUPPORT. Bodies as pieces laid end to end: what each byte builder's bytes are worth (R158, R168), and that a body cut
into pieces of the right widths and values has every field at its offset.
-/

namespace Sys2Proof.Machine

/-! ### Pieces -/

/-- Bytes of a width and a value, as a field asks for them. -/
def Worth (bs : List Byte) (width : Nat) (value : Int) : Prop :=
  bs.length = width ∧ (littleEndian bs : Int) = value % 256 ^ width

/-- Pieces against the widths and values they are to have, one after the other. -/
def Pieces : List (List Byte) → List (Nat × Int) → Prop
  | [], [] => True
  | b :: bs, f :: fs => Worth b f.1 f.2 ∧ Pieces bs fs
  | [], _ :: _ => False
  | _ :: _, [] => False

/-- Fields of these widths and values laid end to end from offset `a`. -/
def fieldsFrom : Nat → List (Nat × Int) → List Field
  | _, [] => []
  | a, f :: fs => ⟨a, f.1, f.2⟩ :: fieldsFrom (a + f.1) fs

/-- A piece is the field at the offset that the bytes before it make. -/
theorem Worth.in_body {before bs after : List Byte} {width : Nat} {value : Int} (h : Worth bs width value) :
    Field.In ⟨before.length, width, value⟩ (before ++ bs ++ after) := by
  obtain ⟨hw, hv⟩ := h
  subst hw
  exact ⟨by simp, by simpa using hv⟩

/-- Pieces behind some bytes are the fields laid end to end behind them. -/
theorem Pieces.hasFields (before : List Byte) {bs : List (List Byte)} {fs : List (Nat × Int)} (h : Pieces bs fs) :
    HasFields (before ++ bs.flatten) (fieldsFrom before.length fs) := by
  induction bs generalizing before fs with
  | nil =>
    cases fs with
    | nil => simp [HasFields, fieldsFrom]
    | cons f fs => exact h.elim
  | cons b bs ih =>
    cases fs with
    | nil => exact h.elim
    | cons f fs =>
      obtain ⟨hb, hs⟩ := h
      intro g hg
      simp only [fieldsFrom, List.mem_cons] at hg
      rcases hg with rfl | hg
      · simpa using hb.in_body (before := before) (after := bs.flatten)
      · simpa using ih (before ++ b) hs g (by simpa [hb.1] using hg)

/-- Two runs of pieces make one. -/
theorem Pieces.append {as bs : List (List Byte)} {fs gs : List (Nat × Int)} (h : Pieces as fs) (k : Pieces bs gs) :
    Pieces (as ++ bs) (fs ++ gs) := by
  induction as generalizing fs with
  | nil =>
    cases fs with
    | nil => exact k
    | cons f fs => exact h.elim
  | cons a as ih =>
    cases fs with
    | nil => exact h.elim
    | cons f fs => exact ⟨h.1, ih h.2⟩

/-! ### What the byte builders give -/

theorem littleEndian_halfBytes (x : Half) : littleEndian (halfBytes x) = x.toNat := by
  simp only [halfBytes, littleEndian, BitVec.extractLsb'_toNat, Nat.shiftRight_zero]
  have := x.isLt
  omega

theorem littleEndian_wordBytes (x : Word) : littleEndian (wordBytes x) = x.toNat := by
  simp only [wordBytes, littleEndian, BitVec.extractLsb'_toNat, Nat.shiftRight_eq_div_pow]
  have := x.isLt
  omega

theorem byte_worth (b : Byte) : Worth [b] 1 b.toNat := by
  refine ⟨rfl, ?_⟩
  have := b.isLt
  simp [littleEndian]
  omega

theorem byteOf_worth (n : Nat) : Worth [byteOf n] 1 n := by
  refine ⟨rfl, ?_⟩
  simp [littleEndian, byteOf]

theorem halfOf_worth (n : Nat) : Worth (halfOf n) 2 n := by
  refine ⟨rfl, ?_⟩
  rw [halfOf, littleEndian_halfBytes]
  simp

theorem halfOfInt_worth (x : Int) : Worth (halfOfInt x) 2 x := by
  refine ⟨rfl, ?_⟩
  rw [halfOfInt, littleEndian_halfBytes]
  simp [BitVec.toNat_ofInt]
  omega

theorem wordOfInt_worth (x : Int) : Worth (wordOfInt x) 4 x := by
  refine ⟨rfl, ?_⟩
  rw [wordOfInt, littleEndian_wordBytes]
  simp [BitVec.toNat_ofInt]
  omega

theorem wordBytes_worth (x : Word) : Worth (wordBytes x) 4 x.toNat := by
  refine ⟨rfl, ?_⟩
  rw [littleEndian_wordBytes]
  have := x.isLt
  simp
  omega

theorem flagByte_worth (b : Bool) : Worth [flagByte b] 1 (flagCode b) := by
  cases b <;> exact ⟨rfl, by decide⟩

theorem linkByte_worth (l : Option Link) : Worth [linkByte l] 1 (linkCodeOf l) := by
  rcases l with - | l
  · exact ⟨rfl, by decide⟩
  · cases l <;> exact ⟨rfl, by decide⟩

theorem lineByte_worth (n : LineId) : Worth [lineByte n] 1 (lineNumber (some n)) := byteOf_worth _

theorem levelByteOpt_worth (x : Option Level) : Worth [levelByteOpt x] 1 (levelCodeOf x) := by
  rcases x with - | x
  · exact ⟨rfl, by decide⟩
  · cases x <;> exact ⟨rfl, by decide⟩

/-- A zone mask has bit k−1 for every zone Zk of which `p` holds. -/
theorem zonesWhere_worth (p : ZoneId → Bool) : Worth [zonesWhere p] 1 (maskOf p) := by
  refine ⟨rfl, ?_⟩
  have hf : List.finRange 8 = [0, 1, 2, 3, 4, 5, 6, 7] := by decide
  simp only [zonesWhere, maskOf, hf, List.foldl, List.map, List.sum_cons, List.sum_nil, littleEndian]
  generalize p 0 = b0, p 1 = b1, p 2 = b2, p 3 = b3, p 4 = b4, p 5 = b5, p 6 = b6, p 7 = b7
  revert b0 b1 b2 b3 b4 b5 b6 b7
  decide

end Sys2Proof.Machine
end

