-- ==== Sys2Proof/Laws/Operations.lean ====
section
/-!
SUPPORT. What each shared operation can do, said once: posting, a zone's notice, transfer, LEVEL entries, an output's
act, edges, and the searches of fetch, hand-over and role checks.
-/

namespace Sys2Proof.Machine

/-! ### The step -/

/-- With no command waiting the block idles (notes/assumptions/1.md). -/
theorem step_idle (s : State) (h : s.pending = []) : step s = .next s := by
  rw [step, h]

/-! ### Time -/

@[simp] theorem timerDue_none (tick : Nat) : timerDue tick none = false := rfl

@[simp] theorem timerDue_some (tick x : Nat) : timerDue tick (some x) = decide (x ≤ tick) := rfl

@[simp] theorem secondDue_none (now : Word) : secondDue now none = false := rfl

@[simp] theorem secondDue_some (now x : Word) : secondDue now (some x) = reached now x := rfl

/-! ### Zone configurations -/

/-- R18 step 4: the same air line and the same set of surface lines. -/
theorem sameLines_iff (c d : ZoneConfig) :
    sameLines c d = true ↔ c.air = d.air ∧ ∀ n, n ∈ c.surfaces ↔ n ∈ d.surfaces := by
  simp only [sameLines, Bool.and_eq_true, decide_eq_true_eq, List.all_eq_true, List.contains_iff_mem, and_assoc]
  exact and_congr_right fun _ => ⟨fun h n => ⟨h.1 n, h.2 n⟩, fun h => ⟨fun n => (h n).1, fun n => (h n).2⟩⟩

/-- A configuration is enabled with an air line and at least one surface line (R5). -/
theorem zoneEnabled_iff (c : ZoneConfig) : zoneEnabled c = true ↔ c.air ≠ none ∧ c.surfaces ≠ [] := by
  simp [zoneEnabled, Option.isSome_iff_ne_none]

/-! ### Posting -/

theorem Posts.nil {s t : State} (h : t.queue = s.queue) : Posts [] s t := h

/-- One more entry posted in the same command. -/
theorem Posts.post {cs : List Content} {s t : State} (h : Posts cs s t) (ht : t.tick = s.tick) (c : Content) :
    Posts (cs ++ [c]) s (t.post c) := by
  simp only [Posts, State.post_queue, ht, List.foldl_append, List.foldl_cons, List.foldl_nil]
  rw [h]

/-- Postings before and after a middle state are the postings of the whole. -/
theorem Posts.trans {cs ds : List Content} {s t u : State} (h : Posts cs s t) (k : Posts ds t u)
    (ht : t.tick = s.tick) : Posts (cs ++ ds) s u := by
  simp only [Posts, List.foldl_append] at *
  rw [k, h, ht]

@[simp] theorem Queue.post_newest (q : Queue) (tick : Nat) (c : Content) :
    (q.post tick c).newest = nextSeq q.newest := rfl

/-- The cursor record of a link after a posting: the discard, the count, then attention and timer (R85). -/
theorem Queue.post_cursor (q : Queue) (tick : Nat) (c : Content) (l : Link) :
    (q.post tick c).cursors.get l =
      ((q.makeRoom.cursors.get l).count { seq := nextSeq q.newest, time := uptimeOf tick, content := c }).refresh tick
        (q.post tick c).ring := by
  simp [Queue.post]

/-- Refreshing attention and timer leaves the cursor's own fields. -/
theorem CursorRecord.refresh_fields (r : CursorRecord) (tick : Nat) (ring : List Entry) :
    (r.refresh tick ring).cursor = r.cursor ∧ (r.refresh tick ring).backlog = r.backlog ∧
      (r.refresh tick ring).missed = r.missed ∧ (r.refresh tick ring).lagging = r.lagging ∧
      (r.refresh tick ring).settings = r.settings := by
  unfold CursorRecord.refresh
  rcases r.gatherAt with - | due <;> split_ifs <;> exact ⟨rfl, rfl, rfl, rfl, rfl⟩

/-- A backlog written takes `lagging` with it as R99 says. -/
theorem CursorRecord.setBacklog_lagging (r : CursorRecord) (n : Nat) :
    LaggingAfter r.lagging n (r.setBacklog n).lagging := by
  unfold LaggingAfter CursorRecord.setBacklog
  refine ⟨?_, ?_, ?_⟩ <;> intros <;> dsimp only <;> split_ifs <;> first | rfl | omega

/-- The model's test of urgent entries ahead is R84's and R97's. -/
theorem urgentAhead_iff (ring : List Entry) (r : CursorRecord) :
    urgentAhead ring r = true ↔
      ∃ e ∈ fromCursor ring r.cursor, Urgent e.content ∧ matchesFilter r.settings.filter e.content = true := by
  have h : ∀ c : Content, c.urgent = true ↔ Urgent c := by
    intro c
    cases c <;> simp [Content.urgent, Urgent]
  simp only [urgentAhead, List.any_eq_true, Bool.and_eq_true, h]

/-- Refreshing a cursor record leaves attention and gather timer as R96 to R98 say, from what they were. -/
theorem CursorRecord.refresh_attention (r : CursorRecord) (tick : Nat) (ring : List Entry) :
    AttentionAfter tick ring r.attention r.gatherAt (r.refresh tick ring) := by
  obtain ⟨hc, hb, -, hl, hs⟩ := r.refresh_fields tick ring
  unfold AttentionAfter
  simp only [hc, hb, hl, hs]
  rw [← urgentAhead_iff]
  unfold CursorRecord.refresh
  refine ⟨fun h => ?_, fun h asserts => ?_, fun h released waits => ?_⟩
  · rw [if_pos h]
    exact ⟨rfl, rfl⟩
  · rw [if_neg (by omega), if_pos (by simp only [Bool.or_eq_true, decide_eq_true_eq]; tauto)]
    exact ⟨rfl, rfl⟩
  · rw [if_neg (by omega), if_neg (by simp only [Bool.or_eq_true, decide_eq_true_eq, released]; tauto)]
    rcases hg : r.gatherAt with - | due
    · refine ⟨nofun, fun _ zero => ?_, fun _ runs => ?_⟩
      · simp [zero]
      · have : r.settings.gatherMs ≠ 0 := by omega
        simp [this, released, ticksAfter, ticksPerMs]
    · exact ⟨fun _ h => ⟨released, hg.trans h⟩, nofun, nofun⟩

/-- The entries from a cursor on begin at the first entry that carries its seq (R87). -/
theorem fromCursor_append {before after : List Entry} {e : Entry} {cursor : Nat} (he : e.seq = cursor)
    (hb : ∀ d ∈ before, d.seq ≠ cursor) : fromCursor (before ++ e :: after) cursor = e :: after := by
  induction before with
  | nil => simp [fromCursor, he]
  | cons d before ih =>
    have hd : d.seq ≠ cursor := hb d (List.mem_cons_self ..)
    have := ih (fun x hx => hb x (List.mem_cons_of_mem _ hx))
    simpa [fromCursor, hd] using this

/-! ### Surfaces -/

/-- The two spellings of the ms from one moment to another. -/
theorem msSince_eq_elapsedMs (now t : Nat) : msSince now t = elapsedMs now t := rfl

/-- A surface line is usable with the temperature of a last good reading not older than `ageS` (R46). -/
theorem usableTemp_eq_some {nowMs ageS : Nat} {r : LineRecord} {k : Int} :
    usableTemp nowMs ageS r = some k ↔
      ∃ g, r.lastGood = some g ∧ g.reading.temp = k ∧ elapsedMs nowMs g.time ≤ ageS * 1000 := by
  rcases h : r.lastGood with - | g
  · simp [usableTemp, h]
  · simp [usableTemp, h, ← msSince_eq_elapsedMs, and_comm]

/-- A hold in SUPPRESS mode, as the statements spell it (R62). -/
theorem ZoneRecord.suppressed_eq (r : ZoneRecord) :
    r.suppressed = r.hold.any (fun h => decide (h.mode = .suppress)) := by
  rcases h : r.hold <;> simp [ZoneRecord.suppressed, h]

/-! ### The zone table -/

/-- Being told depends on the condition alone, and on the outputs as they stood. -/
theorem Tells.congr {z : ZoneId} {p q : Prop} {s r t : State} (h : Tells z p s t) (e : p ↔ q) (ho : s.outs = r.outs) :
    Tells z q r t := by
  intro o
  have hs : s.out o = r.out o := by rw [State.out, ho, ← State.out]
  rw [← e, ← hs]
  exact h o

/-- A zone's notice: told to every output exactly when the effective level changed or the latch was touched (R65). -/
theorem State.inform_spec (z : ZoneId) (before : ZoneRecord) (touched : Bool) (s : State) :
    ChangesOnly [.outs] s (s.inform z before touched) ∧
      Tells z (before.effective ≠ (s.zone z).effective ∨ touched = true) s (s.inform z before touched) := by
  rw [State.inform]
  split_ifs with h
  · refine ⟨s.tell_changesOnly z, ?_⟩
    exact fun o => ⟨fun _ => State.tell_out s z o, fun hn => absurd h hn⟩
  · exact ⟨.refl _ _, fun o => ⟨fun hp => absurd hp h, fun _ => rfl⟩⟩

/-- A pending configuration transferred: the record of `stageOne`, its entry, and nothing else (R17, R18). -/
theorem State.transferPending_spec (z : ZoneId) (s : State) :
    ChangesOnly [.zones, .queue] s (s.transferPending z) ∧ OnlyZone z s (s.transferPending z) ∧
      (s.transferPending z).zone z = (stageOne z s).1 ∧ Posts (stageOne z s).2 s (s.transferPending z) := by
  rcases hp : (s.zone z).pendingConfig with - | p
  · simp only [State.transferPending, stageOne, hp]
    exact ⟨.refl _ _, fun _ _ => rfl, trivial, rfl⟩
  · simp only [State.transferPending, stageOne, hp, State.transfer]
    refine ⟨(s.setZone_changesOnly z _).trans (State.post_changesOnly _ _), ?_, ?_, ?_⟩
    · intro y hy
      simp [State.setZone_zone_other _ _ _ hy]
    · simp
    · simp [Posts, State.post_queue]

/-- A LEVEL entry: posted HELD by the hold, and the latch set to its seq exactly when R74 says so. -/
theorem State.postLevel_spec (z : ZoneId) (n : LevelNotice) (s : State) :
    let held := (s.zone z).suppressed
    let t := (s.postLevel z n).1
    (s.postLevel z n).2 = n.latches held ∧ ChangesOnly [.zones, .queue] s t ∧ OnlyZone z s t ∧
      t.zone z =
        (if n.latches held then { s.zone z with latch := some t.queue.newest } else s.zone z) ∧
      Posts [.level z n.old n.new held n.projected n.dpFloor n.reason n.g n.td] s t := by
  simp only [State.postLevel]
  split_ifs with h
  · refine ⟨h.symm, ((s.post_changesOnly _).trans (State.setZone_changesOnly _ z _)).mono (by decide), ?_, ?_, ?_⟩
    · intro y hy
      simp [State.setZone_zone_other _ _ _ hy]
    · simp
    · simp [Posts, State.post_queue]
  · refine ⟨by simpa using h, (s.post_changesOnly _).mono (by decide), fun _ _ => rfl, ?_, ?_⟩
    · simp
    · simp [Posts, State.post_queue]

/-- How an evaluation and an expiry end: the record written, its LEVEL entry if it has one, the latch by R74, and the
notice to the outputs. -/
theorem State.writeZone_spec (z : ZoneId) (before r : ZoneRecord) (notice : Option LevelNotice) (s : State) :
    let posted := (s.setZone z r).postLevelOpt z notice
    let t := posted.1.inform z before posted.2
    let sets : Bool :=
      match notice with
      | none => false
      | some n => n.latches r.suppressed
    ChangesOnly [.zones, .queue, .outs] s t ∧ OnlyZone z s t ∧
      t.zone z = (if sets then { r with latch := some t.queue.newest } else r) ∧
      Posts
        (match notice with
          | none => []
          | some n => [.level z n.old n.new r.suppressed n.projected n.dpFloor n.reason n.g n.td]) s t ∧
      Tells z (before.effective ≠ (t.zone z).effective ∨ sets = true) s t := by
  rcases notice with - | n
  · simp only [State.postLevelOpt]
    obtain ⟨i1, i2⟩ := State.inform_spec z before false (s.setZone z r)
    have hz : ((s.setZone z r).inform z before false).zones = (s.setZone z r).zones := i1 .zones (by decide)
    have hzz : ((s.setZone z r).inform z before false).zone z = r := by
      rw [State.zone, hz, ← State.zone, State.setZone_zone_self]
    refine ⟨((s.setZone_changesOnly z r).trans i1).mono (by decide), ?_, by simpa using hzz, i1 .queue (by decide), ?_⟩
    · intro y hy
      rw [State.zone, hz, ← State.zone, State.setZone_zone_other _ _ _ hy]
    · refine i2.congr ?_ rfl
      show _ ↔ before.effective ≠ (((s.setZone z r).inform z before false).zone z).effective ∨ _
      rw [hzz, State.setZone_zone_self]
  · simp only [State.postLevelOpt]
    obtain ⟨e, p1, p2, p3, p4⟩ := State.postLevel_spec z n (s.setZone z r)
    obtain ⟨i1, i2⟩ :=
      State.inform_spec z before ((s.setZone z r).postLevel z n).2 ((s.setZone z r).postLevel z n).1
    simp only [State.setZone_zone_self] at e p3 p4
    rw [e] at i1 i2 ⊢
    generalize ((s.setZone z r).postLevel z n).1 = u at *
    have hz : (u.inform z before (n.latches r.suppressed)).zones = u.zones := i1 .zones (by decide)
    have hq : (u.inform z before (n.latches r.suppressed)).queue = u.queue := i1 .queue (by decide)
    have hzz : (u.inform z before (n.latches r.suppressed)).zone z = u.zone z := by
      rw [State.zone, hz, ← State.zone]
    refine ⟨((s.setZone_changesOnly z r).trans (p1.trans i1)).mono (by decide), ?_, ?_, ?_, ?_⟩
    · intro y hy
      rw [State.zone, hz, ← State.zone, p2 y hy, State.setZone_zone_other _ _ _ hy]
    · rw [hzz, hq]
      exact p3
    · unfold Posts at *
      rw [hq, p4]
      rfl
    · exact i2.congr (by rw [hzz]) (p1 .outs (by decide))

/-- Settlement touches the pending level alone (R44). -/
theorem ZoneRecord.settle_keeps (r : ZoneRecord) :
    r.settle.active = r.active ∧ r.settle.status = r.status ∧ r.settle.level = r.level ∧ r.settle.hold = r.hold ∧
      r.settle.latch = r.latch ∧ r.settle.failCount = r.failCount ∧ r.settle.history = r.history := by
  rw [ZoneRecord.settle]
  rcases r.pending with - | p
  · exact ⟨rfl, rfl, rfl, rfl, rfl, rfl, rfl⟩
  · simp only
    split_ifs <;> exact ⟨rfl, rfl, rfl, rfl, rfl, rfl, rfl⟩

/-- The zone that a line's completions evaluate is the one the zone table finds (R41). -/
theorem State.airZone_of_evaluates {z : ZoneId} {n : LineId} {s : State} (h : Evaluates z n s) :
    s.airZone n = some z := by
  obtain ⟨h1, h2, -⟩ := h
  rw [State.airZone, List.find?_eq_some_iff_getElem]
  refine ⟨by simpa using h1, z.val, by simp, by simp, fun j hj => ?_⟩
  have hne : (⟨j, by omega⟩ : ZoneId) ≠ z := by simp [Fin.ext_iff]; omega
  simpa using h2 _ hne

/-- The oldest completion of a line: what stood before and after it is what is left (R138). -/
theorem takeHanded_eq_some {n : LineId} {cs rest : List Completion} {c : Completion} :
    takeHanded n cs = some (c, rest) ↔
      ∃ before after, cs = before ++ c :: after ∧ rest = before ++ after ∧ c.line = n ∧
        ∀ d ∈ before, d.line ≠ n := by
  induction cs generalizing rest with
  | nil => simp [takeHanded]
  | cons d ds ih =>
    by_cases hd : d.line = n
    · simp only [takeHanded, hd, if_true, Option.some.injEq, Prod.mk.injEq]
      constructor
      · rintro ⟨rfl, rfl⟩
        exact ⟨[], ds, rfl, rfl, hd, by simp⟩
      · rintro ⟨before, after, h, hr, hc, hb⟩
        cases before with
        | nil =>
          simp only [List.nil_append, List.cons.injEq] at h hr
          exact ⟨h.1, by rw [hr, h.2]⟩
        | cons e es =>
          simp only [List.cons_append, List.cons.injEq] at h
          exact absurd (h.1 ▸ hd) (hb e (by simp))
    · simp only [takeHanded, hd, if_false, Option.map_eq_some_iff, Prod.exists, Prod.mk.injEq]
      constructor
      · rintro ⟨c', r', h, rfl, rfl⟩
        obtain ⟨before, after, h1, h2, h3, h4⟩ := ih.mp h
        refine ⟨d :: before, after, by simp [h1], by simp [h2], h3, ?_⟩
        simpa [hd] using h4
      · rintro ⟨before, after, h, hr, hc, hb⟩
        cases before with
        | nil =>
          simp only [List.nil_append, List.cons.injEq] at h
          exact absurd (h.1 ▸ hc) hd
        | cons e es =>
          simp only [List.cons_append, List.cons.injEq] at h hr
          refine ⟨c, es ++ after, ih.mpr ⟨es, after, h.2, rfl, hc, fun x hx => hb x (by simp [hx])⟩, rfl, ?_⟩
          rw [hr, h.1]

theorem takeHanded_eq_none {n : LineId} {cs : List Completion} :
    takeHanded n cs = none ↔ ∀ d ∈ cs, d.line ≠ n := by
  induction cs with
  | nil => simp [takeHanded]
  | cons d ds ih => by_cases hd : d.line = n <;> simp [takeHanded, hd, ih]

/-! ### Outputs -/

/-- An act turns the output ON, turns it OFF, or leaves it (R118, R120). -/
theorem OutRecord.act_cases (r : OutRecord) (now : Word) (nowMs : Nat) :
    (r.act now nowMs = (r.turnOn now nowMs, some true) ∧ r.wanted = true ∧
        (r.outState = .offFree ∨ (r.outState = .offHeld ∧ r.config.safety = true))) ∨
      (r.act now nowMs = (r.turnOff now, some false) ∧ r.wanted = false ∧ r.outState = .onFree) ∨
      r.act now nowMs = (r, none) := by
  rw [OutRecord.act]
  rcases hs : r.outState <;> rcases hw : r.wanted <;> simp

/-- What an output's act does to the state: its record, the entry of its turn, and nothing else. -/
theorem State.actOut_spec (o : OutId) (cause : Option OutCause) (s : State) :
    let acted := (s.out o).act s.now s.nowMs
    let t := s.actOut o cause
    ChangesOnly [.queue, .outs] s t ∧ OnlyOut o s t ∧ t.out o = acted.1 ∧
      Posts (turnEntry o (cause.getD (s.out o).source) acted.2) s t := by
  simp only [State.actOut]
  rcases h : (s.out o).act s.now s.nowMs with ⟨r, turn⟩
  rcases turn with - | on
  · refine ⟨(s.setOut_changesOnly o _).mono (by decide), ?_, ?_, ?_⟩
    · intro p hp
      simp [State.setOut_out_other _ _ _ hp]
    · simp
    · simp [Posts, turnEntry]
  · refine ⟨((s.setOut_changesOnly o _).trans (State.post_changesOnly _ _)).mono (by decide), ?_, ?_, ?_⟩
    · intro p hp
      simp [State.setOut_out_other _ _ _ hp]
    · simp
    · simp [Posts, turnEntry, State.post_queue]

/-- The wanted state formed and acted on, said like the act. -/
theorem State.settleOut_spec (o : OutId) (cause : Option OutCause) (s : State) :
    let formed := (s.out o).formWanted
    let acted := formed.act s.now s.nowMs
    let t := s.settleOut o cause
    ChangesOnly [.queue, .outs] s t ∧ OnlyOut o s t ∧ t.out o = acted.1 ∧
      Posts (turnEntry o (cause.getD formed.source) acted.2) s t := by
  obtain ⟨h1, h2, h3, h4⟩ := (s.setOut o (s.out o).formWanted).actOut_spec o cause
  simp only [State.setOut_out_self, State.setOut_now_kept, State.setOut_nowMs_kept] at h3 h4
  refine ⟨((s.setOut_changesOnly o _).trans h1).mono (by decide),
    ?_, h3, h4⟩
  intro p hp
  rw [← State.setOut_out_other s o (s.out o).formWanted hp]
  exact h2 p hp

/-- A record written before the wanted state is formed. -/
theorem State.settleOut_setOut (o : OutId) (cause : Option OutCause) (r : OutRecord) (s : State) :
    let formed := r.formWanted
    let acted := formed.act s.now s.nowMs
    let t := (s.setOut o r).settleOut o cause
    ChangesOnly [.queue, .outs] s t ∧ OnlyOut o s t ∧ t.out o = acted.1 ∧
      Posts (turnEntry o (cause.getD formed.source) acted.2) s t := by
  obtain ⟨h1, h2, h3, h4⟩ := (s.setOut o r).settleOut_spec o cause
  simp only [State.setOut_out_self, State.setOut_now_kept, State.setOut_nowMs_kept] at h3 h4
  refine ⟨((s.setOut_changesOnly o _).trans h1).mono (by decide),
    ?_, h3, h4⟩
  intro p hp
  rw [← State.setOut_out_other s o r hp]
  exact h2 p hp

/-! ### Lines -/

/-- A reference edge at a line: its record, the entry at a change of `fault`, and the completion of an AIR line handed
over (R136 to R138). -/
theorem State.referenceEdgeAt_spec (n : LineId) (s : State) :
    let r := s.line n
    let taken := r.referenceEdge s.tick s.nowMs
    let t := s.referenceEdgeAt n
    ChangesOnly [.lines, .queue, .handed] s t ∧ OnlyLine n s t ∧ t.line n = taken.1 ∧
      Posts ((taken.2.bind (faultEntry n r.fault)).toList) s t ∧
      t.handed = s.handed ++
        (if r.config.kind = .air then (taken.2.map (fun c => ⟨n, c, s.nowMs⟩)).toList else []) := by
  simp only [State.referenceEdgeAt]
  rcases h : (s.line n).referenceEdge s.tick s.nowMs with ⟨r, done⟩
  rcases done with - | c
  · refine ⟨(s.setLine_changesOnly n _).mono (by decide), ?_, ?_, ?_, ?_⟩
    · intro m hm
      simp [State.setLine_line_other _ _ _ hm]
    · simp
    · simp [Posts]
    · simp
  · have posted := (s.setLine_changesOnly n r).trans
      ((s.setLine n r).postOpt_changesOnly (faultEntry n (s.line n).fault c))
    rcases hf : faultEntry n (s.line n).fault c with - | e <;> by_cases hk : (s.line n).config.kind = .air <;>
      simp only [hf, hk, State.postOpt, if_true, if_false] at posted ⊢
    all_goals
      refine ⟨?_, ?_, ?_, ?_, ?_⟩
      · first
        | exact posted.mono (by decide)
        | exact (posted.trans (State.hand_changesOnly _ _)).mono (by decide)
      · intro m hm
        exact State.setLine_line_other s n r hm
      · exact State.setLine_line_self s n r
      · simp [Posts, State.post_queue, hf]
      · simp

/-! ### Searches -/

/-- The zone a search of the table gives satisfies it, and no zone before it does. -/
theorem firstZone_eq_some {f : ZoneId → List ZoneConfig} {p : ZoneConfig → Bool} {z : ZoneId} :
    firstZone (zoneTable f) p = some z ↔ (f z).any p = true ∧ ∀ y, y < z → (f y).any p = false := by
  simp only [firstZone, zoneTable, Option.map_eq_some_iff, List.find?_map, Function.comp_def]
  constructor
  · rintro ⟨e, ⟨y, hy, rfl⟩, rfl⟩
    have h := hy
    rw [List.find?_eq_some_iff_getElem] at h
    obtain ⟨h1, i, hi, h2, h3⟩ := h
    refine ⟨h1, fun x hx => ?_⟩
    have hi' : i = y.val := by simpa using congrArg Fin.val h2
    have hx' : x.val < i := by rw [hi']; exact hx
    simpa using h3 x.val hx'
  · rintro ⟨h1, h2⟩
    refine ⟨(z, f z), ⟨z, ?_, rfl⟩, rfl⟩
    rw [List.find?_eq_some_iff_getElem]
    refine ⟨h1, z.val, by simp, by simp, fun j hj => ?_⟩
    simpa using h2 ⟨j, by omega⟩ hj

/-- No zone of the table satisfies a search that finds none. -/
theorem firstZone_eq_none {f : ZoneId → List ZoneConfig} {p : ZoneConfig → Bool} :
    firstZone (zoneTable f) p = none ↔ ∀ z, ∀ c ∈ f z, p c = false := by
  simp [firstZone, zoneTable]

/-- What a fetch scans, takes and leaves (R91, R92). -/
theorem scanMatching_spec (f : Filter) (n : Nat) (es : List Entry) :
    ∃ passed, es = passed ++ (scanMatching f n es).2 ∧
      (scanMatching f n es).1 = passed.filter (fun e => matchesFilter f e.content) ∧
      (scanMatching f n es).1 = (es.filter (fun e => matchesFilter f e.content)).take n ∧
      ((scanMatching f n es).1.length < n → (scanMatching f n es).2 = []) := by
  induction es generalizing n with
  | nil => cases n <;> exact ⟨[], by simp [scanMatching]⟩
  | cons e rest ih =>
    cases n with
    | zero => exact ⟨[], by simp [scanMatching]⟩
    | succ n =>
      by_cases he : matchesFilter f e.content = true
      · obtain ⟨passed, h1, h2, h3, h4⟩ := ih n
        refine ⟨e :: passed, ?_, ?_, ?_, ?_⟩
        · simp only [scanMatching, he, if_true, List.cons_append]
          rw [← h1]
        · simp only [scanMatching, he, if_true, List.filter_cons_of_pos]
          rw [← h2]
        · simp only [scanMatching, he, if_true, List.filter_cons_of_pos, List.take_succ_cons]
          rw [← h3]
        · simp only [scanMatching, he, if_true, List.length_cons]
          exact fun h => h4 (by omega)
      · obtain ⟨passed, h1, h2, h3, h4⟩ := ih (n + 1)
        refine ⟨e :: passed, ?_, ?_, ?_, ?_⟩
        · simp only [scanMatching, he, List.cons_append]
          exact congrArg (e :: ·) h1
        · simpa [scanMatching, he] using h2
        · simpa [scanMatching, he] using h3
        · simpa [scanMatching, he] using h4

end Sys2Proof.Machine
end

