-- ==== Sys2Proof/Laws/PerInstr.lean ====
section
/-!
SUPPORT. Facts about every command as syntax, one lemma per constructor. `RequestBody`: a request's body fits a frame and
is the one its kind's table row describes; an event has no frame (R163, R168, R169).
-/

namespace Sys2Proof.Laws

/-- The link a command arrives on and its body's length, for a request (R163). -/
def requestShape : Instr → Option (Link × Nat)
  | .status l => some (l, 0)
  | .lineGet l _ => some (l, 1)
  | .lineSet l _ _ => some (l, 22)
  | .zoneGet l _ _ => some (l, 2)
  | .zoneSet l _ b => some (l, 20 + b.surfaces.length)
  | .zoneHold l _ _ _ _ => some (l, 5)
  | .zoneRelease l _ => some (l, 1)
  | .zoneAck l _ _ => some (l, 3)
  | .outGet l _ => some (l, 1)
  | .outSet l _ _ => some (l, 14)
  | .outClaim l _ _ _ => some (l, 4)
  | .outDrop l _ => some (l, 1)
  | .eventsFetch l _ => some (l, 1)
  | .eventsSeek l _ _ => some (l, 3)
  | .linkSet l _ _ _ _ => some (l, 6)
  | .linkRank l _ _ _ => some (l, 3)
  | .save l => some (l, 0)
  | .restart l => some (l, 0)
  | .characterReceived _ _ | .gapTimerExpiry _ | .responseEnd _ | .referenceEdge _ | .nonReferenceEdge _
  | .stallTimerExpiry _ | .evaluationEvent _ | .staleDeadlineExpiry _ | .holdExpiry _
  | .zoneEventAtOutput _ _ | .claimExpiry _ _ | .minHoldExpiry _ | .blinkPhaseExpiry _
  | .gatherTimerExpiry _ | .warmupExpiry | .storeWriteCompletion _ | .fullReset _ _ | .restartEffect
  | .resetPinHeldLow | .captureTick _ => none

/-- A command's link and body length are those of its table row, and its frame is one the receiver can take whole. -/
def RequestBody.Statement (i : Instr) : Prop :=
  (i.request?.map (fun x => (x.1, x.2.2.length))) = requestShape i ∧
    (i.wellFormed = true ↔ ∀ x, requestShape i = some x → x.2 ≤ 60)

theorem RequestBody.status (p : Link) : RequestBody.Statement (.status p) :=
  ⟨rfl, fun _ _ h => by cases h; exact Nat.le_of_ble_eq_true rfl, fun _ => rfl⟩

theorem RequestBody.lineGet (p : Link) (q : Byte) : RequestBody.Statement (.lineGet p q) :=
  ⟨rfl, fun _ _ h => by cases h; exact Nat.le_of_ble_eq_true rfl, fun _ => rfl⟩

theorem RequestBody.lineSet (p : Link) (q : Byte) (r : LineBlock) : RequestBody.Statement (.lineSet p q r) :=
  ⟨rfl, fun _ _ h => by cases h; exact Nat.le_of_ble_eq_true rfl, fun _ => rfl⟩

theorem RequestBody.zoneGet (p : Link) (q : Byte) (r : Byte) : RequestBody.Statement (.zoneGet p q r) :=
  ⟨rfl, fun _ _ h => by cases h; exact Nat.le_of_ble_eq_true rfl, fun _ => rfl⟩

theorem RequestBody.zoneSet (p : Link) (q : Byte) (r : ZoneBlock) : RequestBody.Statement (.zoneSet p q r) := by
  refine ⟨by simp [Instr.request?, requestShape, encodeZoneBlock, halfBytes]; omega, ?_⟩
  simp only [Instr.wellFormed, ZoneBlock.fitsFrame, requestShape, decide_eq_true_eq, Option.some.injEq, forall_eq']
  omega

theorem RequestBody.zoneHold (p : Link) (q : Byte) (r : Byte) (u : Byte) (v : Half) : RequestBody.Statement (.zoneHold p q r u v) :=
  ⟨rfl, fun _ _ h => by cases h; exact Nat.le_of_ble_eq_true rfl, fun _ => rfl⟩

theorem RequestBody.zoneRelease (p : Link) (q : Byte) : RequestBody.Statement (.zoneRelease p q) :=
  ⟨rfl, fun _ _ h => by cases h; exact Nat.le_of_ble_eq_true rfl, fun _ => rfl⟩

theorem RequestBody.zoneAck (p : Link) (q : Byte) (r : Half) : RequestBody.Statement (.zoneAck p q r) :=
  ⟨rfl, fun _ _ h => by cases h; exact Nat.le_of_ble_eq_true rfl, fun _ => rfl⟩

theorem RequestBody.outGet (p : Link) (q : Byte) : RequestBody.Statement (.outGet p q) :=
  ⟨rfl, fun _ _ h => by cases h; exact Nat.le_of_ble_eq_true rfl, fun _ => rfl⟩

theorem RequestBody.outSet (p : Link) (q : Byte) (r : OutBlock) : RequestBody.Statement (.outSet p q r) :=
  ⟨rfl, fun _ _ h => by cases h; exact Nat.le_of_ble_eq_true rfl, fun _ => rfl⟩

theorem RequestBody.outClaim (p : Link) (q : Byte) (r : Byte) (u : Half) : RequestBody.Statement (.outClaim p q r u) :=
  ⟨rfl, fun _ _ h => by cases h; exact Nat.le_of_ble_eq_true rfl, fun _ => rfl⟩

theorem RequestBody.outDrop (p : Link) (q : Byte) : RequestBody.Statement (.outDrop p q) :=
  ⟨rfl, fun _ _ h => by cases h; exact Nat.le_of_ble_eq_true rfl, fun _ => rfl⟩

theorem RequestBody.eventsFetch (p : Link) (q : Byte) : RequestBody.Statement (.eventsFetch p q) :=
  ⟨rfl, fun _ _ h => by cases h; exact Nat.le_of_ble_eq_true rfl, fun _ => rfl⟩

theorem RequestBody.eventsSeek (p : Link) (q : Byte) (r : Half) : RequestBody.Statement (.eventsSeek p q r) :=
  ⟨rfl, fun _ _ h => by cases h; exact Nat.le_of_ble_eq_true rfl, fun _ => rfl⟩

theorem RequestBody.linkSet (p : Link) (q : Byte) (r : Half) (u : Byte) (v : Half) : RequestBody.Statement (.linkSet p q r u v) :=
  ⟨rfl, fun _ _ h => by cases h; exact Nat.le_of_ble_eq_true rfl, fun _ => rfl⟩

theorem RequestBody.linkRank (p : Link) (q : Byte) (r : Byte) (u : Byte) : RequestBody.Statement (.linkRank p q r u) :=
  ⟨rfl, fun _ _ h => by cases h; exact Nat.le_of_ble_eq_true rfl, fun _ => rfl⟩

theorem RequestBody.save (p : Link) : RequestBody.Statement (.save p) :=
  ⟨rfl, fun _ _ h => by cases h; exact Nat.le_of_ble_eq_true rfl, fun _ => rfl⟩

theorem RequestBody.restart (p : Link) : RequestBody.Statement (.restart p) :=
  ⟨rfl, fun _ _ h => by cases h; exact Nat.le_of_ble_eq_true rfl, fun _ => rfl⟩

theorem RequestBody.characterReceived (p : Link) (q : Character) : RequestBody.Statement (.characterReceived p q) :=
  ⟨rfl, nofun, fun _ => rfl⟩

theorem RequestBody.gapTimerExpiry (p : Link) : RequestBody.Statement (.gapTimerExpiry p) :=
  ⟨rfl, nofun, fun _ => rfl⟩

theorem RequestBody.responseEnd (p : Link) : RequestBody.Statement (.responseEnd p) :=
  ⟨rfl, nofun, fun _ => rfl⟩

theorem RequestBody.referenceEdge (p : LineId) : RequestBody.Statement (.referenceEdge p) :=
  ⟨rfl, nofun, fun _ => rfl⟩

theorem RequestBody.nonReferenceEdge (p : LineId) : RequestBody.Statement (.nonReferenceEdge p) :=
  ⟨rfl, nofun, fun _ => rfl⟩

theorem RequestBody.stallTimerExpiry (p : LineId) : RequestBody.Statement (.stallTimerExpiry p) :=
  ⟨rfl, nofun, fun _ => rfl⟩

theorem RequestBody.evaluationEvent (p : LineId) : RequestBody.Statement (.evaluationEvent p) :=
  ⟨rfl, nofun, fun _ => rfl⟩

theorem RequestBody.staleDeadlineExpiry (p : ZoneId) : RequestBody.Statement (.staleDeadlineExpiry p) :=
  ⟨rfl, nofun, fun _ => rfl⟩

theorem RequestBody.holdExpiry (p : ZoneId) : RequestBody.Statement (.holdExpiry p) :=
  ⟨rfl, nofun, fun _ => rfl⟩

theorem RequestBody.zoneEventAtOutput (p : ZoneId) (q : OutId) : RequestBody.Statement (.zoneEventAtOutput p q) :=
  ⟨rfl, nofun, fun _ => rfl⟩

theorem RequestBody.claimExpiry (p : OutId) (q : Link) : RequestBody.Statement (.claimExpiry p q) :=
  ⟨rfl, nofun, fun _ => rfl⟩

theorem RequestBody.minHoldExpiry (p : OutId) : RequestBody.Statement (.minHoldExpiry p) :=
  ⟨rfl, nofun, fun _ => rfl⟩

theorem RequestBody.blinkPhaseExpiry (p : OutId) : RequestBody.Statement (.blinkPhaseExpiry p) :=
  ⟨rfl, nofun, fun _ => rfl⟩

theorem RequestBody.gatherTimerExpiry (p : Link) : RequestBody.Statement (.gatherTimerExpiry p) :=
  ⟨rfl, nofun, fun _ => rfl⟩

theorem RequestBody.warmupExpiry : RequestBody.Statement .warmupExpiry :=
  ⟨rfl, nofun, fun _ => rfl⟩

theorem RequestBody.storeWriteCompletion (p : Bool) : RequestBody.Statement (.storeWriteCompletion p) :=
  ⟨rfl, nofun, fun _ => rfl⟩

theorem RequestBody.fullReset (p : Bool) (q : BitVec 2) : RequestBody.Statement (.fullReset p q) :=
  ⟨rfl, nofun, fun _ => rfl⟩

theorem RequestBody.restartEffect : RequestBody.Statement .restartEffect :=
  ⟨rfl, nofun, fun _ => rfl⟩

theorem RequestBody.resetPinHeldLow : RequestBody.Statement .resetPinHeldLow :=
  ⟨rfl, nofun, fun _ => rfl⟩

theorem RequestBody.captureTick (p : BitVec 16) : RequestBody.Statement (.captureTick p) :=
  ⟨rfl, nofun, fun _ => rfl⟩

end Sys2Proof.Laws
end

