-- ==== Sys2Proof/Laws/Reset.lean ====
section
/-!
SUPPORT. What full reset and restart can do, said once: settings accepted, START posted into an empty ring, the demand
right after, and the outputs acting one after the other.
-/

namespace Sys2Proof.Machine

/-! ### Settings accepted -/

theorem within_iff (lo hi x : Int) : within lo hi x = true ↔ lo ≤ x ∧ x ≤ hi := by simp [within]

theorem withinNat_iff (lo hi x : Nat) : withinNat lo hi x = true ↔ lo ≤ x ∧ x ≤ hi := by simp [withinNat]

theorem lineInRange_iff (c : LineConfig) : lineInRange c = true ↔ lineRanges c := by
  simp only [lineInRange, lineRanges, Bool.and_eq_true, within_iff, withinNat_iff]
  tauto

theorem zoneInRange_iff (c : ZoneConfig) : zoneInRange c = true ↔ zoneRanges c := by
  simp only [zoneInRange, zoneRanges, Bool.and_eq_true, within_iff, withinNat_iff, decide_eq_true_eq,
    List.all_eq_true, bne_iff_ne, gt_iff_lt]
  have := Nat.zero_le c.lead
  tauto

theorem outInRange_iff (c : OutConfig) : outInRange c = true ↔ outRanges c := by
  simp only [outInRange, outRanges, Bool.and_eq_true, withinNat_iff, bne_iff_ne]
  have := Nat.zero_le c.minOnS
  have := Nat.zero_le c.minOffS
  tauto

theorem all_toList_iff {α : Type} {n : Nat} (v : Vector α n) (p : α → Bool) :
    v.toList.all p = true ↔ ∀ i : Fin n, p v[i] = true := by
  rw [List.all_eq_true]
  constructor
  · intro h i
    exact h _ (by rw [Vector.mem_toList_iff]; exact Vector.getElem_mem i.isLt)
  · intro h x hx
    rw [Vector.mem_toList_iff, Vector.mem_iff_getElem] at hx
    obtain ⟨i, hi, rfl⟩ := hx
    exact h ⟨i, hi⟩

theorem firstZone_othersOf_eq_none (z : ZoneId) (f : ZoneId → List ZoneConfig) (p : ZoneConfig → Bool) :
    firstZone (othersOf z f) p = none ↔ ∀ y, y ≠ z → ∀ c ∈ f y, p c = false := by
  simp only [firstZone, othersOf, zoneTable, Option.map_eq_none_iff, List.find?_eq_none, List.mem_filter,
    List.mem_map, List.mem_finRange, true_and, bne_iff_ne]
  constructor
  · intro h y hy c hc
    have := h (y, f y) ⟨⟨y, rfl⟩, hy⟩
    simp only [List.any_eq_true, not_exists, not_and, Bool.not_eq_true] at this
    exact this c hc
  · rintro h x ⟨⟨y, rfl⟩, hy⟩
    simp only [List.any_eq_true, not_exists, not_and, Bool.not_eq_true]
    exact h y hy

/-- R13: a zone configuration past the role checks against the line kinds and the other zones' configurations. -/
theorem roleConflict_othersOf_eq_none (kind : LineId → LineKind) (z : ZoneId) (f : ZoneId → List ZoneConfig)
    (c : ZoneConfig) :
    roleConflict kind (othersOf z f) c = none ↔
      (∀ n, c.air = some n → kind n = .air) ∧ (∀ n ∈ c.surfaces, kind n = .surface) ∧
      (∀ n, c.air = some n → ∀ y, y ≠ z → ∀ d ∈ f y, d.air ≠ some n ∧ n ∉ d.surfaces) ∧
      (∀ n ∈ c.surfaces, ∀ y, y ≠ z → ∀ d ∈ f y, d.air ≠ some n) := by
  unfold roleConflict
  simp only [Option.or_eq_none_iff, Option.map_eq_none_iff, List.find?_eq_none, List.findSome?_eq_none_iff,
    firstZone_othersOf_eq_none, namesAir, namesSurface, Option.mem_toList, bne_iff_ne, decide_eq_false_iff_not]
  simp
  constructor
  · rintro ⟨⟨⟨⟨a, b⟩, c⟩, d⟩, e⟩
    exact ⟨a, b, fun n hn y hy x hx => ⟨c n hn y hy x hx, d n hn y hy x hx⟩, e⟩
  · rintro ⟨a, b, c, e⟩
    exact ⟨⟨⟨⟨a, b⟩, fun n hn y hy x hx => (c n hn y hy x hx).1⟩, fun n hn y hy x hx => (c n hn y hy x hx).2⟩, e⟩

/-- The load's check of an image's settings asks what R175 and R23 ask. -/
theorem settingsAccepted_iff (c : Settings) : settingsAccepted c = true ↔ WithinTheRules c := by
  unfold settingsAccepted WithinTheRules
  simp only [Bool.and_eq_true, all_toList_iff, lineInRange_iff, zoneInRange_iff, outInRange_iff]
  simp only [List.all_eq_true, List.mem_finRange, true_implies, Option.isNone_iff_eq_none,
    roleConflict_othersOf_eq_none, linkInRange, withinNat_iff, rankComplete, Bool.and_eq_true, bne_iff_ne,
    List.mem_singleton, forall_eq]
  constructor
  · rintro ⟨⟨⟨⟨⟨⟨⟨h1, h2⟩, h3⟩, h4⟩, h5⟩, h6⟩, h7⟩, h8⟩
    refine ⟨h1, h2, h3, ⟨h4.1.1, h4.1.2, h4.2⟩, ?_, fun z => (h8 z).1, fun z => (h8 z).2.1, ?_⟩
    · intro l
      cases l
      exacts [h5.2, h6.2, h7.2]
    · exact fun z y n hzy hn => (h8 z).2.2.1 n hn y (Ne.symm hzy)
  · rintro ⟨h1, h2, h3, h4, h5, h6, h7, h8⟩
    refine ⟨⟨⟨⟨⟨⟨⟨h1, h2⟩, h3⟩, ⟨h4.1, h4.2.1⟩, h4.2.2⟩, ⟨Nat.zero_le _, h5 .a⟩⟩, ⟨Nat.zero_le _, h5 .b⟩⟩,
      ⟨Nat.zero_le _, h5 .c⟩⟩, fun z => ⟨h6 z, h7 z, fun n hn y hy => h8 z y n (Ne.symm hy) hn, ?_⟩⟩
    exact fun n hn y hy ha => (h8 y z n hy ha).2 hn

/-- The defaults a load falls back to are the values of their rules (R175). -/
theorem settingsDefault_areDefaults : AreDefaults settingsDefault :=
  ⟨by decide, by decide, by decide, by decide, fun l => by cases l <;> decide⟩

/-! ### START -/

/-- START posted into an empty ring, every cursor empty at it: the ring is this entry, and every link has it as its
backlog, attention asserted (R102, R103). -/
theorem Queue.post_start_empty (q : Queue) (tick : Nat) (c : Cause) (src : ConfigSource) (hr : q.ring = [])
    (hc : ∀ l, ∃ st, q.cursors.get l = CursorRecord.fresh st (nextSeq q.newest)) :
    (q.post tick (.start c src)).ring =
        [{ seq := nextSeq q.newest, time := uptimeOf tick, content := .start c src }] ∧
      (q.post tick (.start c src)).newest = nextSeq q.newest ∧
      ∀ l, (q.post tick (.start c src)).cursors.get l =
        { cursor := nextSeq q.newest, backlog := 1, missed := 0, lagging := false,
          settings := (q.cursors.get l).settings, gatherAt := none, attention := true } := by
  have hm : q.makeRoom = q := by unfold Queue.makeRoom ringSize; rw [hr]; rfl
  have hring : (q.post tick (.start c src)).ring =
      [{ seq := nextSeq q.newest, time := uptimeOf tick, content := .start c src }] := by
    simp [Queue.post, hm, hr]
  refine ⟨hring, rfl, fun l => ?_⟩
  rw [Queue.post_cursor, hm, hring]
  obtain ⟨st, hl⟩ := hc l
  rw [hl]
  simp [CursorRecord.count, matchesFilter, CursorRecord.fresh, CursorRecord.setBacklog, CursorRecord.refresh,
    urgentAhead, fromCursor, Content.urgent]

/-! ### The outputs -/

/-- Right after a reset, with every zone STARTING or DISABLED and no hold or latch, an output's demand is ON exactly
when it follows DEMAND and a STARTING zone of its mask has a fail level of at least its trigger (R108). -/
theorem demandOf_after_reset (zones : Vector ZoneRecord 8) (active : Fin 8 → ZoneConfig) (c : OutConfig)
    (h : ∀ z : Fin 8, zones[z].active = active z ∧ zones[z].hold = none ∧ zones[z].latch = none ∧
      (zones[z].status = .starting ∨ zones[z].status = .disabled)) :
    demandOf zones c = true ↔ c.source = .demand ∧ ∃ z : Fin 8, c.zoneMask.getLsbD z.val = true ∧
      zones[z].status = .starting ∧ c.trigger.rank ≤ (active z).failLevel.rank := by
  unfold demandOf
  rcases c.source with - | - | -
  · simp
  · simp only [List.any_eq_true, List.mem_finRange, true_and, Bool.and_eq_true, maskHas]
    refine exists_congr fun z => and_congr Iff.rfl ?_
    obtain ⟨h1, h2, h3, h4⟩ := h z
    generalize zones[z] = r at *
    unfold zoneDemands ZoneRecord.effective ZoneRecord.base
    rcases h4 with h4 | h4 <;> simp [h4, h2, h1]
  · have : ∀ z : Fin 8, zones[z].latch.isSome = false := fun z => by rw [(h z).2.2.1]; rfl
    simp only [this]
    simp

/-- An OFF_FREE output without claims, its demand formed and acted on (R126, R127). -/
def OutRecord.started (zones : Vector ZoneRecord 8) (now : Word) (nowMs : Nat) (r : OutRecord) : OutRecord :=
  let on := demandOf zones r.config
  { r with
    demand := on
    wanted := on
    overridden := false
    outState := if on then (if r.config.minOnS = 0 then .onFree else .onHeld) else .offFree
    holdStart := if on = true ∧ r.config.minOnS ≠ 0 then some now else r.holdStart
    blink :=
      if on = true then
        (if r.config.mode = .blink then some ⟨true, (nowMs + r.config.blinkOn * 100) % 4294967296000⟩ else none)
      else r.blink
    pin := pinLevel r.config on }

/-- The entry of an output that a reset turns ON (R126, R127). -/
def startEntry (zones : Vector ZoneRecord 8) (o : OutId) (c : OutConfig) : List Content :=
  if demandOf zones c then [.output o false true .auto] else []

theorem State.startOut_spec (o : OutId) (s : State) (h1 : (s.out o).outState = .offFree)
    (h2 : (s.out o).winner = none) (h3 : (s.out o).holdStart = none) :
    ChangesOnly [.queue, .outs] s (s.startOut o) ∧ OnlyOut o s (s.startOut o) ∧
      (s.startOut o).out o = (s.out o).started s.zones s.now s.nowMs ∧
      Posts (startEntry s.zones o (s.out o).config) s (s.startOut o) := by
  obtain ⟨d1, d2, d3, d4⟩ := State.settleOut_setOut o none ((s.out o).formDemand s.zones) s
  change ChangesOnly _ s (s.demandOut o) at d1
  change OnlyOut o s (s.demandOut o) at d2
  change (s.demandOut o).out o = _ at d3
  change Posts _ s (s.demandOut o) at d4
  have hw : ((s.out o).formDemand s.zones).wantedOf = (demandOf s.zones (s.out o).config, false) := by
    simp [OutRecord.wantedOf, OutRecord.winningClaim, OutRecord.formDemand, h2]
  have hf : ((s.out o).formDemand s.zones).formWanted =
      { s.out o with
        demand := demandOf s.zones (s.out o).config
        wanted := demandOf s.zones (s.out o).config
        overridden := false } := by
    unfold OutRecord.formWanted; rw [hw]; rfl
  rw [hf] at d3 d4
  refine ⟨(d1.trans (State.setOut_changesOnly _ o _)).mono (by decide), ?_, ?_, ?_⟩
  · intro p hp
    rw [← d2 p hp]
    exact State.setOut_out_other _ _ _ hp
  · have : (s.startOut o).out o = ((s.demandOut o).out o).setPin := by simp [State.startOut]
    rw [this, d3]
    unfold OutRecord.started
    generalize demandOf s.zones (s.out o).config = on
    generalize s.out o = r at *
    obtain ⟨c, cl, d, w, wa, ov, os, hs, bl, pin, told⟩ := r
    simp only at h1 h2 h3
    subst h1 h2 h3
    rcases on
    · simp [OutRecord.act, OutRecord.setPin, OutRecord.pinActive, OutState.isOn]
    · rcases hm : c.mode <;> by_cases h0 : c.minOnS = 0 <;>
        simp [OutRecord.act, OutRecord.setPin, OutRecord.pinActive, OutState.isOn, OutRecord.turnOn,
          OutRecord.startBlink, h0, hm, msAfter, msWrap]
  · have hq : (s.startOut o).queue = (s.demandOut o).queue := rfl
    unfold Posts at *
    rw [hq, d4]
    congr 1
    unfold startEntry
    rcases hd : demandOf s.zones (s.out o).config <;>
      simp [OutRecord.act, h1, turnEntry, OutRecord.source, h2]

/-- The outputs named act one after the other, each on the zones as they stand (R126, R127). -/
theorem State.startOut_foldl (os : List OutId) (hn : os.Nodup) : ∀ s : State,
    (∀ o ∈ os, (s.out o).outState = .offFree ∧ (s.out o).winner = none ∧ (s.out o).holdStart = none) →
      let t := os.foldl (fun s o => s.startOut o) s
      ChangesOnly [.queue, .outs] s t ∧ (∀ o ∈ os, t.out o = (s.out o).started s.zones s.now s.nowMs) ∧
        (∀ o, o ∉ os → t.out o = s.out o) ∧
        Posts (os.flatMap (fun o => startEntry s.zones o (s.out o).config)) s t := by
  induction os with
  | nil => exact fun s _ => ⟨.refl _ _, by simp, by simp, rfl⟩
  | cons o os ih =>
    intro s h
    obtain ⟨ho, hn⟩ := List.nodup_cons.1 hn
    obtain ⟨h1, h2, h3⟩ := h o (by simp)
    obtain ⟨a, b, c, d⟩ := State.startOut_spec o s h1 h2 h3
    have hne : ∀ p ∈ os, p ≠ o := fun p hp e => ho (e ▸ hp)
    obtain ⟨e1, e2, e3, e4⟩ :=
      ih hn (s.startOut o) (fun p hp => by rw [b p (hne p hp)]; exact h p (by simp [hp]))
    have hz : (s.startOut o).zones = s.zones := a .zones (by decide)
    have ht : (s.startOut o).tick = s.tick := a .tick (by decide)
    have hnow : (s.startOut o).now = s.now := by unfold State.now; rw [ht]
    have hms : (s.startOut o).nowMs = s.nowMs := by unfold State.nowMs; rw [ht]
    refine ⟨(a.trans e1).mono (by decide), ?_, ?_, ?_⟩
    · intro p hp
      rcases List.mem_cons.1 hp with rfl | hp
      · exact (e3 p ho).trans c
      · rw [List.foldl_cons, e2 p hp, hz, hnow, hms, b p (hne p hp)]
    · intro p hp
      simp only [List.mem_cons, not_or] at hp
      exact (e3 p hp.2).trans (b p hp.1)
    · rw [List.flatMap_cons]
      refine Posts.trans d ?_ ht
      have : os.flatMap (fun o => startEntry s.zones o (s.out o).config) =
          os.flatMap (fun p => startEntry (s.startOut o).zones p ((s.startOut o).out p).config) :=
        List.flatMap_congr fun p hp => by rw [hz, b p (hne p hp)]
      rw [this]
      exact e4

end Sys2Proof.Machine
end

