-- ==== Sys2Proof/Tests/Slice0.lean ====
section
/-!
SUPPORT. The model's own tests: the manual's worked cases, one step of each command on a small state, and for every
statement with hypotheses a witness that meets them. Expected values come from spec/, named in each comment.
-/

namespace Sys2Proof.Machine.Tests

/-- The command ends in a next state that satisfies `p`. -/
def okIf (o : Host.Outcome State Fault Refusal) (p : State → Bool) : Bool :=
  match o with
  | .next t => p t
  | .fault _ => false
  | .refused _ => false

/-! ### Small states -/

/-- An AIR line and a SURFACE line under the default calibration. -/
def air : LineConfig := { lineDefault with kind := .air }

def surface : LineConfig := { lineDefault with kind := .surface }

/-- A zone on line 1 (air) and line 2 (surface) with the default numbers. -/
def zoneOn : ZoneConfig := { zoneDefault with air := some 0, surfaces := [1] }

/-- After the warm-up, uptime 10 s: line 1 AIR and ACQUIRING, line 2 SURFACE with 14.20 °C measured at 9 s, Z1 STARTING
with its deadline at 40 s. -/
def running : State :=
  { State.reset with
    tick := 80000000
    lines := (State.reset.lines.set 0
      { LineRecord.fresh false air with state := .acquiring, sampled := some false, stallAt := some 80160000 }).set 1
      { LineRecord.fresh false surface with
        state := .acquiring, sampled := some false, stallAt := some 80160000, lastQuality := .good,
        lastRaw := some ⟨100000, 3210⟩, lastGood := some ⟨⟨0, 1420⟩, 9000⟩ }
    zones := State.reset.zones.set 0 { ZoneRecord.fresh zoneOn with deadline := some 40 }
    startup := { State.reset.startup with warmupAt := none } }

/-- `running` with line 1's record changed. -/
def lineIs (f : LineRecord → LineRecord) : State := running.setLine 0 (f (running.line 0))

/-- `running` with Z1's record changed. -/
def zoneIs (f : ZoneRecord → ZoneRecord) : State := running.setZone 0 (f (running.zone 0))

/-- `running` with O1's record changed. -/
def outIs (f : OutRecord → OutRecord) : State := running.setOut 0 (f (running.out 0))

/-- `running` with link A's record changed. -/
def linkIs (f : LinkRecord → LinkRecord) : State := running.setLink .a (f (running.link .a))

/-- `running` with link A's cursor record changed. -/
def cursorIs (f : CursorRecord → CursorRecord) : State := running.setCursor .a (f (running.cursor .a))

/-- `running` with start-up control changed. -/
def startupIs (f : Startup → Startup) : State := { running with startup := f running.startup }

/-- `running` with these completions handed over. -/
def handedIs (cs : List Completion) : State := { running with handed := cs }

/-- `running` with a restart of link A pending. -/
def restarting (ended : Bool) : State := startupIs (fun u => { u with restart := some ⟨.a, ended⟩ })

/-- `running` with a write in flight. -/
def writing : State := { running with store := { running.store with state := .writing settingsDefault } }

/-- The default blocks as they stand on the wire. -/
def lineBlock : LineBlock :=
  { kind := 1, edge := 0, polarity := 0, window := 1, stallMs := 20, rhRef := 100000, rhGain := 1966, rhOffset := 0,
    tGain := 20000, tOffset := -5000 }

def zoneBlock : ZoneBlock :=
  { air := 1, surfaces := [2], watchBelow := 300, warnBelow := 100, wetBelow := 0, hyst := 50, worsenConfirm := 2,
    improveConfirm := 4, lead := 4, failLevel := 2, failLimit := 3, staleS := 30, surfaceAgeS := 60 }

def outBlock : OutBlock :=
  { source := 1, zoneMask := 1, trigger := 2, safety := 1, polarity := 1, drive := 0, mode := 1, minOnS := 10,
    minOffS := 0, blinkOn := 5, blinkOff := 5 }

/-- A zone block of a given number of surfaces. -/
def wideBlock (n : Nat) : ZoneBlock := { zoneBlock with surfaces := List.replicate n 2 }

/-- A link in HUNT takes a request whole. -/
theorem takes_of {l : Link} {i : Instr} {s : State} (h : s.startup.resetHeld = false) (r : (s.link l).rx = .hunt)
    (w : i.wellFormed = true) (p : s.startup.restart = none) : Takes l i s := ⟨h, .inl ⟨r, w, .inl p⟩⟩

theorem none_absurd {α : Type} {x : Option α} {p : α → Prop} (h : x = none) : ∀ w, x = some w → p w := by
  simp [h]

/-! ### WellFormed and frames -/

/-- A ZONE SET of 40 surfaces fits a frame, one of 41 does not (R163: body 20 + n; R168: at most 60). -/
theorem test_wellFormed_surfaces :
    (Instr.zoneSet .a 1 (wideBlock 40)).wellFormed = true ∧ (Instr.zoneSet .a 1 (wideBlock 41)).wellFormed = false := by
  decide

/-- chapter 9's worked example: the bytes of OUT DROP for O1. -/
theorem test_frame_outDrop : requestFrame .outDrop [1] = [0xC5, 0x02, 0x33, 0x01, 0xCA] := by decide

/-- R169: ZONE HOLD's body is zone, mode, level, minutes, the minutes' low byte first (R158). -/
theorem test_decode_zoneHold :
    decodeRequest .b 0x22 [3, 2, 1, 0xA0, 0x05] = .request .zoneHold (.zoneHold .b 3 2 1 1440) := by decide

/-- R163: a kind with no row, and a body one byte short. -/
theorem test_decode_refused :
    decodeRequest .a 0x02 [] = .unknownKind ∧ decodeRequest .a 0x41 [2, 0] = .badLength := by decide

/-- R158: even parity over data and parity bits, and the stop bit high. -/
theorem test_character_errors :
    (Character.mk 0x01 true true).isError = false ∧ (Character.mk 0x01 false true).isError = true ∧
      (Character.mk 0x03 false false).isError = true := by decide

/-! ### Condensation arithmetic: the worked cases of chapter 2 -/

theorem test_condensation_normal :
    condensation 2240 550 (4, 1420) [(5, 1655)] [250, 215, 180, 150] 4 =
      { e := 1505, td := 1290, dpFloor := false, m := 130, coldest := 4, p := some 10, projected := true, g := 10 } := by
  decide

theorem test_condensation_floor :
    saturation 900 = 1157 ∧ vapour 1157 300 = 347 ∧ dewPoint 347 900 = (0, true) ∧ dewPoint 611 0 = (0, false) ∧
      vapour 611 999 = 610 ∧ dewPoint 610 0 = (0, true) := by decide

theorem test_condensation_limit :
    saturation 3 = 613 ∧ dewPointRaw 613 = (4, false) ∧ dewPoint 613 3 = (3, false) ∧ dewPoint 2737 2240 = (2240, false) :=
  by decide

theorem test_condensation_top :
    saturation 6000 = 19932 ∧ dewPointRaw 19932 = (6000, false) ∧ dewPointRaw 18935 = (5881, false) ∧
      saturation 5999 = 19924 ∧ dewPointRaw 19924 = (5999, false) ∧ saturation 1500 = 1705 ∧
      dewPointRaw 1705 = (1500, false) := by decide

theorem test_projection_rows :
    project [250, 215, 180] 4 130 = none ∧ project [100, 120, 140, 160] 4 200 = none ∧
      project [130, 140, 150, 160] 4 130 = none ∧ project [250, 215, 180, 150] 0 130 = some 130 ∧
      project [131, 131, 130, 130] 1 130 = some 130 ∧ project [132, 131, 131, 130] 1 130 = some 129 ∧
      project [250, 215, 180, 150] 15 130 = some (-320) := by decide

theorem test_coldest_first_of_tie : coldestFrom 1290 (1420 - 1290, 6) [(4, 1420)] = (130, 6) := by decide

theorem test_condensation_clamped :
    condensation 2800 900 (0, -950) [] [2400, 1500, 300, -1200] 8 =
      { e := 3434, td := 2623, dpFloor := false, m := -3573, coldest := 0, p := some (-9999), projected := true,
        g := -9999 } := by decide

/-- R39's own halves: away from zero on both sides. -/
theorem test_rounded_halves : rounded 1 2 = 1 ∧ rounded (-1) 2 = -1 ∧ rounded 34335 10 = 3434 := by decide

/-! ### Levels: the tables of chapters 3 and 4 -/

theorem test_hysteresis_rows :
    rawLevel zoneDefault .watch 100 = .warn ∧ rawLevel zoneDefault .warn 140 = .warn ∧
      rawLevel zoneDefault .warn 151 = .watch ∧ rawLevel zoneDefault .warn 420 = .clear ∧
      rawLevel zoneDefault .wet 60 = .warn ∧ rawLevel zoneDefault .wet 30 = .wet ∧
      rawLevel zoneDefault .clear 310 = .clear := by decide

/-- chapter 4's examples, for `fail_level` WARN. -/
def shown (status : ZoneStatus) (level : Level) (mode : Option HoldMode) : Option Level :=
  ZoneRecord.effective
    { ZoneRecord.fresh zoneOn with
      status := status, level := level, hold := mode.map (fun m => { mode := m, link := .a, expiry := 0 }) }

theorem test_effective_levels :
    shown .active .watch none = some .watch ∧ shown .active .wet (some .suppress) = some .clear ∧
      shown .active .clear (some (.assert .warn)) = some .warn ∧ shown .active .wet (some (.assert .watch)) = some .wet ∧
      shown .unknown .watch none = some .warn ∧ shown .unknown .watch (some (.assert .wet)) = some .wet ∧
      shown .starting .clear (some .suppress) = some .clear ∧ shown .disabled .warn (some (.assert .wet)) = none := by
  decide

/-! ### Conversion: the worked cases of chapter 8 -/

theorem test_conversion_normal : convert air 60587 21933 = (⟨118334, 3620⟩, .good ⟨550, 2240⟩) := by decide

theorem test_conversion_saturated : convert air 68608 22000 = (⟨134000, 3207⟩, .saturated ⟨1000, 1414⟩) := by decide

theorem test_conversion_range : convert air 71680 25000 = (⟨140000, 3488⟩, .range) := by decide

theorem test_humidity_below_zero :
    humidity air 98500 = -45 ∧ sortHumidity (-45) = .clamped 0 ∧ sortHumidity (-51) = .rejected := by decide

theorem test_conversion_surface :
    let c := { surface with window := .w16 }
    convert c 12800 3216 = (⟨100000, 2513⟩, .good ⟨0, 26⟩) ∧ (convert c 12800 3469).2 = .good ⟨0, 420⟩ ∧
      (convert c 12800 2528).2 = .saturated ⟨0, -1000⟩ ∧ (convert c 12800 2432).2 = .range ∧
      convert c 12800 12736 = (⟨100000, 9950⟩, .range) := by decide

/-! ### The event queue: the worked example of chapter 5 -/

/-- seqs 4001 to 4064 held. -/
def fullRing : List Entry :=
  (List.range 64).map (fun k => { seq := 4001 + k, time := 0, content := .probeOk 0 })

def fullQueue : Queue :=
  { ring := fullRing, newest := 4064,
    cursors :=
      ⟨{ CursorRecord.fresh linkDefault 4001 with backlog := 64, lagging := true, attention := true },
       CursorRecord.fresh { filter := { zoneMask := 3, kinds := 2, minLevel := .warn }, gatherMs := 0 } 4060,
       CursorRecord.fresh { linkDefault with gatherMs := 500 } 4065⟩ }

/-- Posting 1: LEVEL Z3 WATCH to WARN, seq 4065. -/
def posted : Queue :=
  fullQueue.post 0 (.level 2 (.level .watch) (.level .warn) false false false none 50 1200)

theorem test_overflow_link_a :
    (posted.cursors.a.cursor, posted.cursors.a.backlog, posted.cursors.a.missed, posted.newest) = (4002, 64, 1, 4065) := by
  decide

theorem test_overflow_links_b_c :
    (posted.cursors.b.cursor, posted.cursors.b.backlog, posted.cursors.c.backlog, posted.cursors.c.gatherAt) =
      (4060, 0, 1, some 4000000) := by decide

/-- R94: 4067 less 4003 is 64; over the wrap 0 is left out, so 65,535 lies one behind 1. -/
theorem test_seq_distance : seqDistance 4067 4003 = 64 ∧ seqDistance 1 65535 = 1 ∧ seqDistance 7 7 = 0 := by decide

/-! ### One step of each command -/

/-- The bytes of link A's response. -/
def sent (s : State) : List Byte := ((s.link .a).response).getD []

/-- The content of the newest entry. -/
def last (s : State) : Option Content := (s.queue.ring.getLast?).map (fun e => e.content)

/-- R180: STATUS empties the cause set of its own link alone; 18 body bytes after C6, length, kind, status, flags. -/
theorem test_status :
    okIf (exec (.status .a) State.reset) (fun t =>
      t.startup.causes.a = 0 && t.startup.causes.b = 1 && (sent t).take 8 = [0xC6, 21, 0x01, 0, 4, 0x3A, 1, 0]) := by
  decide

/-- R165: no line 17. Length 3, kind 0x10, status 0x11, attention flag 4; 3 + 16 + 17 + 4 + 216 is 256. -/
theorem test_lineGet_noSuch :
    okIf (exec (.lineGet .a 17) State.reset) (fun t => sent t = [0xC6, 3, 0x10, 0x11, 4, 216]) := by decide

/-- R143: in the warm-up a line set to AIR is WARMUP without a stall timer, and CONFIG of class LINE is posted. -/
theorem test_lineSet :
    okIf (exec (.lineSet .b 16 lineBlock) State.reset) (fun t =>
      (t.line 15).config.kind = .air && (t.line 15).state = .warmup && (t.line 15).stallAt = none &&
        last t = some (.config (.line 15) .b)) := by decide

/-- R142: a rename of line 1's kind that Z1's air role does not allow names line 1 and zone 1. -/
theorem test_lineSet_conflict :
    okIf (exec (.lineSet .a 1 { lineBlock with kind := 2 }) running) (fun t =>
      ((sent t).drop 3).take 4 = [0x12, 4, 1, 1]) := by decide

/-- R171: part STATE of a DISABLED zone has no effective level (0xFF) and none pending (0xFF, 0). -/
theorem test_zoneGet_state :
    okIf (exec (.zoneGet .a 2 2) State.reset) (fun t =>
      (sent t).drop 5 = [2, 0, 0, 0, 0, 0xFF, 0, 0, 0, 0, 0xFF, 0, 0xFF, 0, 0, 0, 0, 0, 200]) := by decide

/-- R14, R18: Z2 on line 3 becomes STARTING with epoch 1 and a deadline 30 s from uptime 10 s. -/
theorem test_zoneSet :
    okIf (exec (.zoneSet .a 2 { zoneBlock with air := 3 })
        (running.setLine 2 { LineRecord.fresh false air with state := .acquiring })) (fun t =>
      (t.zone 1).status = .starting && (t.zone 1).epoch = 1 && (t.zone 1).deadline = some 40 &&
        last t = some (.config (.zone 1 1) .a) && (t.out 0).told = [1]) := by decide

/-- R15: on a zone that is not DISABLED the configuration waits, with its writer. -/
theorem test_zoneSet_pending :
    okIf (exec (.zoneSet .c 1 zoneBlock) running) (fun t =>
      (t.zone 0).pendingConfig = some ⟨zoneOn, .c⟩ && (t.zone 0).epoch = 0 && t.queue.ring.length = 1) := by decide

/-- R66, R68: SUPPRESS for 1440 min from uptime 10 s ends at 86,410 s; the effective level WARN becomes CLEAR. -/
theorem test_zoneHold :
    okIf (exec (.zoneHold .a 1 1 0xFF 1440) running) (fun t =>
      (t.zone 0).hold = some ⟨.suppress, .a, 86410⟩ && (t.zone 0).effective = some .clear && (t.out 3).told = [0]) := by
  decide

/-- R69: no hold to release. -/
theorem test_zoneRelease_nothing :
    okIf (exec (.zoneRelease .a 1) running) (fun t => ((sent t).drop 3).take 1 = [0x04] && t.zones = running.zones) := by
  decide

/-- R76: the latch's own seq clears it; another is STALE with the latch seq. -/
theorem test_zoneAck :
    okIf (exec (.zoneAck .a 1 300) (zoneIs (fun r => { r with latch := some 300 }))) (fun t =>
      (t.zone 0).latch = none && last t = some (.ack 0 .a 300) && (t.out 0).told = [0]) := by decide

theorem test_zoneAck_stale :
    okIf (exec (.zoneAck .a 1 299) (zoneIs (fun r => { r with latch := some 300 }))) (fun t =>
      ((sent t).drop 3).take 4 = [0x03, 4, 0x2C, 0x01] && (t.zone 0).latch = some 300) := by decide

/-- R125, R171: 38 body bytes, so a length of 41. -/
theorem test_outGet :
    okIf (exec (.outGet .a 4) running) (fun t => (sent t).take 4 = [0xC6, 41, 0x30, 0] && (sent t).length = 44) := by
  decide

/-- R121: Z1 STARTING contributes its fail level WARN, so a safety output on trigger WARN turns ON held, blinking; active
LOW, its on phase is a low pin (R123). -/
theorem test_outSet :
    okIf (exec (.outSet .a 1 outBlock) running) (fun t =>
      (t.out 0).outState = .onHeld && (t.out 0).holdStart = some 10 && (t.out 0).pin = .low &&
        (t.out 0).blink = some ⟨true, 10500⟩ && last t = some (.output 0 false true .auto)) := by decide

/-- R110, R111: link A outranks C; C's claim ON is stored, and OUTRANKED when A claims OFF. -/
theorem test_outClaim :
    okIf (exec (.outClaim .a 1 1 1) running) (fun t =>
      (t.out 0).winner = some .a && (t.out 0).outState = .onFree && (t.out 0).pin = .high &&
        last t = some (.output 0 false true (.claim .a))) := by decide

theorem test_outClaim_outranked :
    okIf (exec (.outClaim .a 1 1 1)
        (outIs (fun r => { r with claims := ⟨none, some ⟨false, 70⟩, none⟩, winner := some .b }) |>.setLine 3
          (LineRecord.fresh false lineDefault))) (fun t => (t.out 0).winner = some .a) := by decide

/-- chapter 9's worked example: B's slot is empty, `overrun` was set by noise while SERVING, attention is released. -/
theorem test_outDrop_response :
    okIf (exec (.outDrop .b 1)
        ((running.setCursor .b { running.cursor .b with attention := false, backlog := 0 }).setLink .b
          { LinkRecord.fresh with rx := .serving, serving := some (.outDrop .b 1), overrun := true, discarded := 4 }))
      (fun t =>
        (t.link .b).response = some [0xC6, 0x03, 0x33, 0x04, 0x01, 0xC5] && (t.link .b).rx = .sending &&
          (t.link .b).discarded = 4 && !(t.link .b).overrun) := by decide

/-- R91, R98: the START entry fetched, the cursor one past it, attention released; 14 bytes of START POWER_ON with
defaults (R170). -/
theorem test_eventsFetch :
    okIf (exec (.eventsFetch .a 4) State.reset) (fun t =>
      (t.cursor .a).cursor = 2 && (t.cursor .a).backlog = 0 && !(t.cursor .a).attention &&
        ((sent t).drop 5).take 17 = [1, 0, 0, 1, 0, 0, 0, 0, 0, 1, 0, 1, 0, 0, 0, 0, 0]) := by decide

/-- R93: NEWEST gives up what is unread and releases attention. -/
theorem test_eventsSeek :
    okIf (exec (.eventsSeek .a 1 0) State.reset) (fun t =>
      (t.cursor .a).cursor = 2 && (t.cursor .a).backlog = 0 && !(t.cursor .a).attention) := by decide

/-- R95: kinds without CONFIG; the backlog counted afresh keeps START, which matches every filter (R89). -/
theorem test_linkSet :
    okIf (exec (.linkSet .a 1 2 3 2000) State.reset) (fun t =>
      (t.cursor .a).backlog = 1 && (t.cursor .a).settings.gatherMs = 2000 && (t.cursor .b).backlog = 2) := by decide

/-- R116: C, B, A. -/
theorem test_linkRank :
    okIf (exec (.linkRank .a 3 2 1) State.reset) (fun t =>
      t.rank = ⟨.c, .b, .a⟩ && last t = some (.config .rank .a)) := by decide

/-- R173: WRITING with the image invalid, then BUSY. -/
theorem test_save :
    okIf (exec (.save .a) running) (fun t => t.store.state != .idle && !t.store.image.valid) := by decide

theorem test_save_busy :
    okIf (exec (.save .a) writing) (fun t => ((sent t).drop 3).take 1 = [0x13]) := by decide

/-- R178: pending for link A, ACCEPTED; nothing else yet. -/
theorem test_restart :
    okIf (exec (.restart .a) running) (fun t =>
      t.startup.restart = some ⟨.a, false⟩ && ((sent t).drop 3).take 1 = [0x01] && t.zones = running.zones) := by decide

/-- R160: the lead byte starts a frame and the 20 ms gap timer; 62 is no length. -/
theorem test_characterReceived :
    okIf (exec (.characterReceived .a (characterOf 0xC5)) running) (fun t =>
      (t.link .a).rx = .length && (t.link .a).gapAt = some 80160000) := by decide

theorem test_characterReceived_badLength :
    okIf (exec (.characterReceived .a (characterOf 62)) (linkIs (fun r => { r with rx := .length, gapAt := some 1 })))
      (fun t => (t.link .a).rx = .drain && (t.link .a).discarded = 1) := by decide

/-- R161: a drain ends without a discard counted. -/
theorem test_gapTimerExpiry :
    okIf (exec (.gapTimerExpiry .a) (linkIs (fun r => { r with rx := .drain, gapAt := some 80000000 }))) (fun t =>
      (t.link .a).rx = .hunt && (t.link .a).discarded = 0) := by decide

/-- R164, R178: the end of A's response with a restart pending for A and the store IDLE makes the restart take effect. -/
theorem test_responseEnd_restart :
    okIf (exec (.responseEnd .a)
        ((restarting false).setLink .a { LinkRecord.fresh with rx := .sending, response := some [], driverEnable := true }))
      (fun t =>
        (t.link .a).rx = .hunt && t.startup.restart = none && t.startup.causes.b = 5 &&
          last t = some (.start (.restart .a) .defaults)) := by decide

/-- R135: the first reference edge begins a window and restarts the stall timer of 20 ms. -/
theorem test_referenceEdge :
    okIf (exec (.referenceEdge 0) (lineIs (fun r => { r with pin := true }))) (fun t =>
      (t.line 0).window = some (Window.begin 80000000) && (t.line 0).stallAt = some 80160000) := by decide

/-- chapter 8's normal AIR reading: the 64th period completes the window with span 60,587 and active 21,933. -/
theorem test_referenceEdge_completes :
    okIf (exec (.referenceEdge 0)
        (lineIs (fun r => { r with pin := true, window := some ⟨63, 60000, 21933, 79999413, 0⟩ }))) (fun t =>
      (t.line 0).lastGood = some ⟨⟨550, 2240⟩, 10000⟩ && t.handed = [⟨0, .good ⟨550, 2240⟩, 10000⟩] &&
        (t.line 0).window = some (Window.begin 80000000)) := by decide

/-- R133: the falling edge of a RISING line changes the sampled level alone. -/
theorem test_nonReferenceEdge :
    okIf (exec (.nonReferenceEdge 0) (lineIs (fun r => { r with sampled := some true }))) (fun t =>
      (t.line 0).sampled = some false && (t.line 0).window = none && (t.line 0).stallAt = some 80160000) := by decide

/-- R139. -/
theorem test_stallTimerExpiry :
    okIf (exec (.stallTimerExpiry 0) (lineIs (fun r => { r with stallAt := some 80000000 }))) (fun t =>
      (t.line 0).state = .stalled && (t.line 0).fault && last t = some (.probeFault 0 .stalled)) := by decide

/-- chapter 2's normal air over line 2 at 14.20 °C: m 130; from STARTING the level is level(130), WATCH (R51, R53). -/
theorem test_evaluationEvent :
    okIf (exec (.evaluationEvent 0) (handedIs [⟨0, .good ⟨550, 2240⟩, 10000⟩])) (fun t =>
      (t.zone 0).status = .active && (t.zone 0).level = .watch && (t.zone 0).history = [130] &&
        last t = some (.level 0 .starting (.level .watch) false false false none 130 1290)) := by decide

/-- R47, R48: the third failure in a row turns the zone UNKNOWN by AIR_BAD. -/
theorem test_evaluationEvent_fails :
    okIf (exec (.evaluationEvent 0) ((zoneIs (fun r => { r with failCount := 2 })) |> fun s =>
        { s with handed := [⟨0, .range, 10000⟩] })) (fun t =>
      (t.zone 0).status = .unknown && (t.zone 0).unknownReason = some .airBad && (t.zone 0).failCount = 3) := by decide

/-- R57. -/
theorem test_staleDeadlineExpiry :
    okIf (exec (.staleDeadlineExpiry 0) (zoneIs (fun r => { r with deadline := some 10 }))) (fun t =>
      (t.zone 0).status = .unknown && (t.zone 0).unknownReason = some .stale && (t.zone 0).deadline = none) := by decide

/-- R70: HOLD_END names the link of the hold. -/
theorem test_holdExpiry :
    okIf (exec (.holdExpiry 0) (zoneIs (fun r => { r with hold := some ⟨.suppress, .c, 10⟩ }))) (fun t =>
      (t.zone 0).hold = none && last t = some (.holdEnd 0 .expired .c)) := by decide

/-- R108, R109: Z1 in the mask, effective WARN at the trigger. -/
theorem test_zoneEventAtOutput :
    okIf (exec (.zoneEventAtOutput 0 0)
        (outIs (fun r => { r with config := { outDefault with source := .demand, zoneMask := 1 }, told := [0] })))
      (fun t => (t.out 0).demand && (t.out 0).outState = .onFree && (t.out 0).told = []) := by decide

/-- R113: the turn a claim's expiry makes carries EXPIRY. -/
theorem test_claimExpiry :
    okIf (exec (.claimExpiry 0 .b)
        (outIs (fun r =>
          { r with claims := ⟨none, some ⟨true, 10⟩, none⟩, winner := some .b, wanted := true, outState := .onFree })))
      (fun t => (t.out 0).outState = .offFree && last t = some (.output 0 true false .expiry)) := by decide

/-- R119: at the end of the minimum time the output takes the wanted state as it then stands. -/
theorem test_minHoldExpiry :
    okIf (exec (.minHoldExpiry 0)
        (outIs (fun r =>
          { r with config := { outDefault with minOnS := 10 }, outState := .onHeld, holdStart := some 0 })))
      (fun t => (t.out 0).outState = .offFree && last t = some (.output 0 true false .minHoldEnd)) := by decide

/-- R123: the off phase runs its own length, 0.5 s. -/
theorem test_blinkPhaseExpiry :
    okIf (exec (.blinkPhaseExpiry 0)
        (outIs (fun r =>
          { r with config := { outDefault with mode := .blink }, outState := .onFree, blink := some ⟨true, 10000⟩ })))
      (fun t => (t.out 0).blink = some ⟨false, 10500⟩ && (t.out 0).pin = .low) := by decide

/-- R96. -/
theorem test_gatherTimerExpiry :
    okIf (exec (.gatherTimerExpiry .a) (cursorIs (fun r => { r with attention := false, gatherAt := some 80000000 })))
      (fun t => (t.cursor .a).attention && (t.cursor .a).gatherAt = none) := by decide

/-- R20, R146, R177: at 4 s a STARTING zone's deadline is armed and a WARMUP line starts. -/
theorem test_warmupExpiry :
    okIf (exec .warmupExpiry
        { State.reset with
          tick := 32000000, lines := State.reset.lines.set 0 (LineRecord.fresh false air),
          zones := State.reset.zones.set 0 (ZoneRecord.fresh zoneOn) })
      (fun t =>
        t.startup.warmupAt = none && (t.line 0).state = .acquiring && (t.line 0).stallAt = some 32160000 &&
          (t.zone 0).deadline = some 34) := by decide

/-- R173: a failed read-back leaves the image invalid. -/
theorem test_storeWriteCompletion :
    okIf (exec (.storeWriteCompletion false) writing) (fun t =>
      t.store.state = .idle && !t.store.image.valid && last t = some (.store .failed)) := by decide

/-- R176, R102: the reset pin's full reset starts seqs again at 1, with cause RESET_PIN and the straps read. -/
theorem test_fullReset :
    okIf (exec (.fullReset false 2) running) (fun t =>
      t.queue.newest = 1 && last t = some (.start .resetPin .defaults) && t.startup.rate = 2 && t.tick = 0 &&
        (t.zone 0).status = .disabled) := by decide

/-- R103, R179: the restart keeps the settings and the seqs and re-arms Z1. -/
theorem test_restartEffect :
    okIf (exec .restartEffect (restarting true)) (fun t =>
      t.queue.newest = 2 && t.queue.ring.length = 1 && (t.zone 0).active = zoneOn && (t.zone 0).deadline = some 40 &&
        (t.line 1).lastGood = none) := by decide

/-- R176: nothing driven, and no command but the full reset acts. -/
theorem test_resetPinHeldLow :
    okIf (exec .resetPinHeldLow running) (fun t =>
      (t.out 0).pin = .undriven && !(t.cursor .a).attention && !t.startup.probeSupply &&
        okIf (exec (.status .a) t) (fun u => u.startup.causes.a = 1)) := by decide

/-- R133, R135: a high level on line 1 leaves its rising edge waiting, which begins a window. -/
theorem test_captureTick :
    okIf (exec (.captureTick 1) running) (fun t =>
      t.tick = 80000001 && (t.line 0).edgeWaiting &&
        okIf (exec (.referenceEdge 0) t) (fun u => (u.line 0).window = some (Window.begin 80000001))) := by decide

/-! ### Witnesses: the hypotheses of each statement met by a concrete state and operands, at boundary values -/

/-- A ZONE SET of 40 surfaces: the longest request there is. -/
theorem witness_RequestDecodingInvertsEncoding :
    ∃ i l k body, Instr.wellFormed i = true ∧ i.request? = some (l, k, body) ∧ body.length = 60 :=
  ⟨.zoneSet .a 1 (wideBlock 40), _, _, _, by decide, rfl, by decide⟩

theorem witness_RequestFrameIsReceivedWhole :
    (∃ k body, (Instr.outDrop .b 1).request? = some (.b, k, body) ∧ running.startup.resetHeld = false ∧
        (running.link .b).rx = .hunt ∧ running.startup.restart = none) ∧
      ∃ k body, (Instr.status .c).request? = some (.c, k, body) ∧ ((restarting true).link .c).rx = .hunt ∧
        (restarting true).startup.restart ≠ none :=
  ⟨⟨_, _, rfl, rfl, rfl, rfl⟩, _, _, rfl, rfl, by decide⟩

/-- Each way a request is not taken, on link A. -/
theorem witness_UntakenRequestsChangeOnlyTheirLink :
    (startupIs (fun u => { u with resetHeld := true })).startup.resetHeld = true ∧
      ((running.link .a).rx = .hunt ∧ (Instr.zoneSet .a 1 (wideBlock 41)).wellFormed = false) ∧
      (((restarting false).link .a).rx = .hunt ∧ (restarting false).startup.restart.isSome = true) ∧
      (let s := (restarting false).setLink .a { LinkRecord.fresh with rx := .serving, serving := some (.restart .a) };
        (s.link .a).rx = .serving ∧ (s.link .a).serving = some (.restart .a) ∧ s.startup.restart.isSome = true) ∧
      ((linkIs (fun r => { r with rx := .sending })).link .a).rx = .sending ∧
      (let s := linkIs (fun r => { r with rx := .serving, serving := some (.save .a) });
        (s.link .a).rx = .serving ∧ (s.link .a).serving ≠ some (.status .a)) ∧
      ((linkIs (fun r => { r with rx := .length })).link .a).rx = .length ∧
      ((linkIs (fun r => { r with rx := .body })).link .a).rx = .body ∧
      ((linkIs (fun r => { r with rx := .drain })).link .a).rx = .drain := by decide

/-- The characters on both sides of every test of the receiver: 0xC5 and 0xC4, lengths 0, 1, 61 and 62, an error, a
full and an unfinished body, and a gap timer due at this very tick and one tick later. -/
theorem witness_ReceiverFollowsItsTables :
    running.startup.resetHeld = false ∧ (running.link .a).rx = .hunt ∧
      ((characterOf 0xC5).data = 0xC5 ∧ (characterOf 0xC5).isError = false ∧ (characterOf 0xC4).data ≠ 0xC5) ∧
      ((linkIs (fun r => { r with rx := .length })).link .a).rx = .length ∧
      ((characterOf 0).data.toNat = 0 ∧ (characterOf 62).data.toNat = 62 ∧ (characterOf 1).data.toNat = 1 ∧
        (characterOf 61).data.toNat = 61 ∧ (characterOf 61).isError = false ∧
        (Character.mk 61 true false).isError = true) ∧
      (let s := linkIs (fun r => { r with rx := .body, buffer := [2, 0x33], gapAt := some 80000000 });
        (s.link .a).rx = .body ∧ (s.link .a).buffer = 2 :: [0x33] ∧ [0x33].length < (2 : Byte).toNat ∧
          s.tick = 80000000) ∧
      (let s := linkIs (fun r => { r with rx := .body, buffer := [2, 0x33, 1], gapAt := some 80000001 });
        (s.link .a).buffer = 2 :: [0x33, 1] ∧ (2 : Byte).toNat ≤ [(0x33 : Byte), 1].length ∧
          byteSum [2, 0x33, 1] + (characterOf 0xCB).data ≠ 0 ∧ s.tick < 80000001) := by decide

/-- OUT DROP's frame of chapter 9; a kind with no row; a body one byte long for ZONE GET; with and without a restart
pending. -/
theorem witness_ValidFramesAreDispatched :
    (byteSum [2, 0x33, 1] + (characterOf 0xCA).data = 0 ∧ RequestKind.ofCode 0x33 = some .outDrop ∧
        decodeBody .a .outDrop [1] = some (.outDrop .a 1)) ∧
      (byteSum [2, 0x02, 1] + (characterOf 251).data = 0 ∧ RequestKind.ofCode 0x02 = none) ∧
      (byteSum [2, 0x20, 1] + (characterOf 221).data = 0 ∧ RequestKind.ofCode 0x20 = some .zoneGet ∧
        decodeBody .a .zoneGet [1] = none) ∧
      (let s := linkIs (fun r => { r with rx := .body, buffer := [2, 0x33, 1] });
        s.startup.resetHeld = false ∧ (s.link .a).rx = .body ∧ (s.link .a).buffer = 2 :: 0x33 :: [1] ∧
          (2 : Byte).toNat = [(1 : Byte)].length + 1 ∧ s.startup.restart = none) ∧
      (restarting false).startup.restart.isSome = true := by decide

/-- A response that ends with no restart, with one requested elsewhere, and with its own. -/
theorem witness_ResponseEndFreesTheLink :
    (running.link .a).rx ≠ .sending ∧
      (let s := linkIs (fun r => { r with rx := .sending });
        (s.link .a).rx = .sending ∧ s.startup.restart = none) ∧
      (let s := (restarting false).setLink .a { LinkRecord.fresh with rx := .sending };
        (s.link .a).rx = .sending ∧
          s.startup.restart.map (fun p => if p.link = .a then { p with responseEnded := true } else p) =
            some ⟨.a, true⟩ ∧ s.store.state = .idle) ∧
      (let s := (restarting false).setLink .b { LinkRecord.fresh with rx := .sending };
        (s.link .b).rx = .sending ∧
          s.startup.restart.map (fun p => if p.link = .b then { p with responseEnded := true } else p) =
            some ⟨.a, false⟩) := by decide

/-- Z8 with a pending configuration of two surface lines, and Z1 without one. -/
def pendingSet : State :=
  running.setZone 7 { running.zone 7 with pendingConfig := some ⟨{ zoneOn with surfaces := [1, 3] }, .c⟩ }

/-- The first and the last line, zone and output, and every part of a zone, with and without a pending configuration. -/
theorem witness_ReadsAnswerTheRecord :
    (Takes .a (.lineGet .a 1) running ∧ Takes .a (.lineGet .a 16) running ∧ (1 : Byte).toNat = (0 : LineId).val + 1 ∧
        (16 : Byte).toNat = (15 : LineId).val + 1) ∧
      ((∀ part ∈ ([0, 1, 2, 3] : List Byte), Takes .a (.zoneGet .a 8 part) pendingSet) ∧
        (8 : Byte).toNat = (7 : ZoneId).val + 1 ∧ (1 : Byte).toNat = (0 : ZoneId).val + 1 ∧
        (pendingSet.zone 7).pendingConfig = some ⟨{ zoneOn with surfaces := [1, 3] }, .c⟩ ∧
        Takes .a (.zoneGet .a 1 1) pendingSet ∧ (pendingSet.zone 0).pendingConfig = none) ∧
      (Takes .a (.outGet .a 4) running ∧ (4 : Byte).toNat = (3 : OutId).val + 1) ∧ Takes .a (.status .a) running :=
  ⟨⟨takes_of rfl rfl rfl rfl, takes_of rfl rfl rfl rfl, by decide, by decide⟩,
    ⟨fun _ _ => takes_of rfl rfl rfl rfl, by decide, by decide, by decide, takes_of rfl rfl rfl rfl, by decide⟩,
    ⟨takes_of rfl rfl rfl rfl, by decide⟩, takes_of rfl rfl rfl rfl⟩

/-- A request with its owner is taken from SERVING too. -/
theorem witness_takes_serving :
    Takes .a (.save .a) (linkIs (fun r => { r with rx := .serving, serving := some (.save .a) })) :=
  ⟨rfl, .inr ⟨rfl, rfl, by decide⟩⟩

/-- Numbers one past their range at either end. -/
theorem witness_NumbersOutOfRangeAnswerNoSuch :
    (Takes .a (.lineGet .a 17) running ∧ namesNothing (.lineGet .a 17)) ∧ namesNothing (.lineSet .a 0 lineBlock) ∧
      namesNothing (.zoneRelease .a 9) ∧ namesNothing (.outDrop .a 5) ∧
      namesNothing (.zoneSet .a 1 { zoneBlock with air := 17 }) ∧
      namesNothing (.zoneSet .a 1 { zoneBlock with surfaces := [2, 17] }) :=
  ⟨⟨takes_of rfl rfl rfl rfl, .inr (by decide)⟩, .inl (by decide), .inr (by decide), .inr (by decide),
    .inr (.inl (by decide)), .inr (.inr ⟨17, by decide, .inr (by decide)⟩)⟩

/-- Values one past their range, with numbers that exist. -/
theorem witness_ValuesOutOfRangeAnswerBadArg :
    (Takes .a (.outClaim .a 4 1 1441) running ∧ ¬namesNothing (.outClaim .a 4 1 1441) ∧
        badValue running (.outClaim .a 4 1 1441)) ∧
      badValue running (.lineSet .a 1 { lineBlock with stallMs := 251 }) ∧
      badValue running (.zoneSet .a 1 { zoneBlock with wetBelow := -501 }) ∧
      badValue running (.outSet .a 1 { outBlock with minOffS := 601 }) ∧
      badValue running (.linkSet .a 0 2048 0 0) ∧ badValue running (.eventsSeek .a 2 0) ∧
      badValue running (.zoneHold .a 2 1 0xFF 1) := by
  refine ⟨⟨takes_of rfl rfl rfl rfl, ?_, .inr (.inr (by decide))⟩, ?_, ?_, ?_, .inl (by decide),
    .inr ⟨by decide, by decide⟩, .inr ⟨1, by decide, by decide⟩⟩
  · simp only [namesNothing, outside]
    decide
  · exact .inr (.inr (.inr (.inr (.inr (.inl (by decide))))))
  · simp only [badValue, badZone]
    decide
  · simp only [badValue, badOut]
    decide

/-- Z1 uses line 1 as its air line and line 2 as a surface. -/
theorem witness_RoleConflictsAreRefused :
    (Takes .a (.lineSet .a 1 { lineBlock with kind := 0 }) running ∧
        (∃ c, lineConfigOf { lineBlock with kind := 0 } = some c ∧ c.kind ≠ .air) ∧
        (running.zone 0).active.air = some 0) ∧
      (Takes .a (.zoneSet .a 2 zoneBlock) running ∧ ¬namesNothing (.zoneSet .a 2 zoneBlock)) ∧
      (∃ c, zoneConfigOf { zoneBlock with air := 2, surfaces := [3] } = some c ∧ c.air = some 1 ∧
        (running.line 1).config.kind ≠ .air) ∧
      (∃ c, zoneConfigOf { zoneBlock with surfaces := [2, 3] } = some c ∧ c.air = some 0 ∧ c.surfaces = [1, 2] ∧
        (running.line 0).config.kind = .air ∧ (running.line 1).config.kind = .surface ∧
        (running.line 2).config.kind ≠ .surface) ∧
      (∃ c, zoneConfigOf zoneBlock = some c ∧ c.air = some 0 ∧ c.surfaces = [1]) := by
  refine ⟨⟨takes_of rfl rfl rfl rfl, ⟨_, rfl, by decide⟩, rfl⟩, ⟨takes_of rfl rfl rfl rfl, ?_⟩, ⟨_, rfl, by decide⟩,
    ⟨_, rfl, by decide⟩, ⟨_, rfl, by decide⟩⟩
  simp only [namesNothing, outside]
  decide

/-- Every field at its least and at its greatest value (R130, R131). -/
def leastLine : LineBlock :=
  { kind := 0, edge := 0, polarity := 0, window := 0, stallMs := 5, rhRef := 25000, rhGain := -65535,
    rhOffset := -1000, tGain := -65535, tOffset := -10000 }

def greatestLine : LineBlock :=
  { kind := 2, edge := 1, polarity := 1, window := 2, stallMs := 250, rhRef := 1000000, rhGain := 65535,
    rhOffset := 1000, tGain := 65535, tOffset := 10000 }

/-- Line 16 in no zone, and line 1 kept as the air line it is. -/
theorem witness_LineSetStartsTheLineAfresh :
    (¬badLine leastLine ∧ ¬badLine greatestLine) ∧ Takes .b (.lineSet .b 16 lineBlock) running ∧ lineOf 16 = some 15 ∧ Takes .a (.lineSet .a 1 lineBlock) running ∧
      (∃ c, lineConfigOf lineBlock = some c ∧ c.kind = .air) ∧
      ∀ y, ∀ d ∈ (running.zone y).configs, (d.air = some 0 → LineKind.air = .air) ∧ 0 ∉ d.surfaces :=
  ⟨⟨by unfold badLine; decide, by unfold badLine; decide⟩, takes_of rfl rfl rfl rfl, by decide, takes_of rfl rfl rfl rfl, ⟨_, rfl, rfl⟩, by decide⟩

/-- Line 1 (RISING) with its level just gone high, and just gone low. -/
theorem witness_EdgesBeginAndCountPeriods :
    ReferenceEdgeWaits 0 (lineIs (fun r => { r with pin := true })) ∧
      ReferenceEdgeWaits 0
        (lineIs (fun r => { r with config := { air with edge := .falling }, sampled := some true })) ∧
      ((lineIs (fun r => { r with pin := true, state := .warmup })).line 0).state = .warmup ∧
      ((lineIs (fun r => { r with pin := true, state := .stalled })).line 0).state = .stalled ∧
      (((lineIs (fun r => { r with pin := true })).line 0).state = .acquiring ∧
        ((lineIs (fun r => { r with pin := true })).line 0).window = none) ∧
      (let r := (lineIs (fun r => { r with pin := true, window := some ⟨62, 0, 0, 0, 0⟩ })).line 0;
        r.window = some ⟨62, 0, 0, 0, 0⟩ ∧ 62 + 1 ≠ r.config.window.periods) ∧
      OtherEdgeWaits 0 (lineIs (fun r => { r with sampled := some true })) ∧ ¬ReferenceEdgeWaits 0 running ∧
      ¬OtherEdgeWaits 0 running := by
  simp only [ReferenceEdgeWaits, OtherEdgeWaits]
  decide

/-- The last period of a window whose totals are those of chapter 8's readings: GOOD, SATURATED and RANGE. -/
def completing (span active : Nat) : State :=
  lineIs (fun r => { r with pin := true, window := some ⟨63, span, active, 80000000, 0⟩ })

theorem witness_CompletedWindowsAreTaken :
    ReferenceEdgeWaits 0 (completing 60587 21933) ∧
      (let r := (completing 60587 21933).line 0;
        r.state = .acquiring ∧ r.window = some ⟨63, 60587, 21933, 80000000, 0⟩ ∧ 63 + 1 = r.config.window.periods ∧
          (convert r.config (60587 + (80000000 - 80000000)) (21933 + 0)).2 = .good ⟨550, 2240⟩) ∧
      (convert air 68608 22000).2 = .saturated ⟨1000, 1414⟩ ∧ (convert air 71680 25000).2 = .range := by
  simp only [ReferenceEdgeWaits]
  decide

/-- `running` has no edge waiting on any line; lines 3 to 16 have not been sampled yet. -/
theorem witness_CaptureTickSamplesEveryLine :
    running.startup.resetHeld = false ∧ (∀ n, NoEdgeWaits n running) ∧ (running.line 2).sampled = none := by
  simp only [NoEdgeWaits]
  decide

/-- A stall timer due at this tick and one tick later, and a stopped one. -/
theorem witness_StallTimerExpiryStallsTheLine :
    (let s := lineIs (fun r => { r with stallAt := some 80000000 });
      (s.line 0).state = .acquiring ∧ (s.line 0).stallAt = some 80000000 ∧ 80000000 ≤ s.tick) ∧
      (running.line 15).state ≠ .acquiring ∧ (running.line 15).stallAt = none ∧
      (let s := lineIs (fun r => { r with stallAt := some 80000001 });
        (s.line 0).stallAt = some 80000001 ∧ s.tick < 80000001) := by decide

/-- `running` with one command waiting. -/
def queued (i : Instr) : State := { running with pending := [i] }

/-- The records of `running`: an AIR line, a SURFACE line with a reading, and lines OFF. -/
theorem witness_LineRecordsStayInOrder :
    (queued (.stallTimerExpiry 0)).LinesOk ∧ ∃ t, step (queued (.stallTimerExpiry 0)) = .next t := by
  refine ⟨?_, _, rfl⟩
  have h : ∀ n, (queued (.stallTimerExpiry 0)).line n = running.line 0 ∨
      (queued (.stallTimerExpiry 0)).line n = running.line 1 ∨
      (queued (.stallTimerExpiry 0)).line n = LineRecord.fresh false lineDefault := by decide
  intro n
  rcases h n with h | h | h <;> rw [h] <;>
    refine ⟨by decide, by decide, by decide, by decide, ?_, by decide, by decide, ?_⟩
  · exact none_absurd rfl
  · exact none_absurd rfl
  · exact none_absurd rfl
  · intro g hg
    obtain rfl : (⟨⟨0, 1420⟩, 9000⟩ : LastGood) = g := Option.some.inj hg
    exact ⟨by decide, by decide⟩
  · exact none_absurd rfl
  · exact none_absurd rfl

/-- A half on the negative side, a pressure on each side of the floor, and air at the freezing point. -/
theorem witness_RoundedIsNearestHalvesAway : (0 : Int) < 2 ∧ 2 * |(-3) - 2 * rounded (-3) 2| = 2 := by decide

/-- The first and the last segment, at both ends of each, and knot 12. -/
theorem witness_PressureAndDewPointFollowTheTable :
    let table : List Int := [611, 872, 1228, 1705, 2339, 3169, 4246, 5627, 7381, 9590, 12344, 15752, 19932];
    (table[0]? = some 611 ∧ table[1]? = some 872 ∧ (500 : Int) * 0 ≤ 0 ∧ (499 : Int) < 500 * (0 + 1)) ∧
      (table[11]? = some 15752 ∧ table[12]? = some 19932 ∧ table[13]? = none ∧ (15752 : Int) ≤ 19931 ∧
        (19931 : Int) < 19932) ∧ (3 : Int) < (dewPointRaw 613).1 ∧ (dewPointRaw 611).1 ≤ 0 ∧
      ((610 : Int) < 611 ∧ (611 : Int) ≤ 611 ∧ (0 : Int) ≤ 0) := by decide

/-- An AIR line under the default calibration, windows of 64 periods at P 100,000: RH 0 with T at the low edge of its valid
range, of its clamp band and just beyond it, and a duty just below the raw limit. -/
theorem witness_ConversionSortsTheReading :
    let c : LineConfig := { lineDefault with kind := .air };
    (c.kind ≠ .off ∧ 0 < 51200 ∧ 12800 ≤ 51200) ∧
      (convert c 51200 12800 = (⟨100000, 2500⟩, .good ⟨0, 0⟩)) ∧
      (convert c 51200 12544 = (⟨100000, 2450⟩, .saturated ⟨0, 0⟩)) ∧
      (convert c 51200 12539 = (⟨100000, 2449⟩, .range)) ∧ (convert c 51200 507 = (⟨100000, 99⟩, .range)) ∧
      (convert { c with kind := .surface } 51200 9984 = (⟨100000, 1950⟩, .saturated ⟨0, -1000⟩)) := by decide

/-- The corners of the input ranges: 0 and 60 °C, 0 and 100 %RH, surfaces at −10 and 60 °C. -/
theorem witness_EvaluationResultsLieInRange :
    ((0 : Int) ≤ 6000 ∧ (6000 : Int) ≤ 6000 ∧ (0 : Int) ≤ 1000 ∧ (1000 : Int) ≤ 1000) ∧
      (∀ v ∈ ((0, -1000) : LineId × Int) :: [(1, 6000)], -1000 ≤ v.2 ∧ v.2 ≤ 6000) ∧
      (condensation 6000 1000 (0, -1000) [(1, 6000)] [-6999, 0, 0, 0] 15).p = some (-7004) := by decide

/-- Four margins held, with m below the oldest, and a projection that is not below m. -/
theorem witness_ProjectionAndGoverningMargin :
    [250, 215, 180, 150].head? = some (250 : Int) ∧
      (condensation 2240 550 (4, 1420) [(5, 1655)] [250, 215, 180, 150] 4).p = some 10 ∧
      (condensation 2240 550 (4, 1420) [(5, 1655)] [250, 215, 180, 150] 0).p = some 130 ∧
      (condensation 2240 550 (4, 1420) [(5, 1655)] [250, 215, 180] 4).p = none := by decide

/-- The default thresholds, with the margins where the levels meet. -/
theorem witness_ThresholdsAndHysteresis :
    zoneDefault.wetBelow < zoneDefault.warnBelow ∧ zoneDefault.warnBelow < zoneDefault.watchBelow ∧
      0 ≤ zoneDefault.hyst ∧ (thresholdLevel zoneDefault 0 = .wet ∧ thresholdLevel zoneDefault 1 = .warn) ∧
      (thresholdLevel zoneDefault 100 = .warn ∧ thresholdLevel zoneDefault 101 = .watch) ∧
      (thresholdLevel zoneDefault 300 = .watch ∧ thresholdLevel zoneDefault 301 = .clear) ∧
      Level.watch.rank ≤ (thresholdLevel zoneDefault 100).rank ∧
      (thresholdLevel zoneDefault 140).rank < Level.warn.rank ∧
      ({ zoneDefault with hyst := 0 } : ZoneConfig).hyst = 0 := by decide

/-- Every status, with and without each hold. -/
theorem witness_EffectiveLevelFollowsStatusAndHold :
    (running.zone 1).status = .disabled ∧
      ((running.zone 0).status = .starting ∧ (running.zone 0).active.failLevel = .warn ∧ (running.zone 0).hold = none) ∧
      (let r := (zoneIs (fun r => { r with status := .active, level := .wet, hold := some ⟨.suppress, .a, 0⟩ })).zone 0;
        r.status = .active ∧ r.level = .wet ∧ r.hold = some ⟨.suppress, .a, 0⟩) ∧
      (let r := (zoneIs (fun r => { r with status := .unknown, hold := some ⟨.assert .watch, .a, 0⟩ })).zone 0;
        r.status = .unknown ∧ r.hold = some ⟨.assert .watch, .a, 0⟩) := by decide

/-- Fields at their least values with the lowest thresholds in order, and at their greatest with the highest. -/
def leastZone : ZoneBlock :=
  { air := 0, surfaces := [], watchBelow := -498, warnBelow := -499, wetBelow := -500, hyst := 0, worsenConfirm := 1,
    improveConfirm := 1, lead := 0, failLevel := 1, failLimit := 1, staleS := 5, surfaceAgeS := 1 }

def greatestZone : ZoneBlock :=
  { air := 16, surfaces := [1, 14, 15], watchBelow := 2000, warnBelow := 1999, wetBelow := 1998, hyst := 500,
    worsenConfirm := 8, improveConfirm := 15, lead := 15, failLevel := 3, failLimit := 7, staleS := 600,
    surfaceAgeS := 600 }

theorem test_extreme_zone_blocks_are_good :
    (¬badZone leastZone ∧ leastZone.air.toNat ≤ 16 ∧ ∀ n ∈ leastZone.surfaces, ¬outside 16 n) ∧
      ¬badZone greatestZone ∧ greatestZone.air.toNat ≤ 16 ∧ ∀ n ∈ greatestZone.surfaces, ¬outside 16 n := by
  refine ⟨⟨?_, by decide, ?_⟩, ?_, by decide, ?_⟩ <;> simp only [badZone, outside] <;> decide

/-- Z2 DISABLED and Z1 STARTING, on lines of the right kinds that no other zone names. -/
theorem witness_ZoneSetTakesEffectOrWaits :
    (¬badZone leastZone ∧ ¬badZone greatestZone) ∧
    (Takes .a (.zoneSet .a 1 zoneBlock) running ∧ ¬namesNothing (.zoneSet .a 1 zoneBlock) ∧
        (∃ c, zoneConfigOf zoneBlock = some c ∧ zoneConflict 0 c running = none) ∧
        (running.zone 0).status ≠ .disabled) ∧
      (let s := running.setLine 2 { LineRecord.fresh false air with state := .acquiring };
        Takes .a (.zoneSet .a 8 { zoneBlock with air := 3 }) s ∧ ¬namesNothing (.zoneSet .a 8 { zoneBlock with air := 3 }) ∧
          (∃ c, zoneConfigOf { zoneBlock with air := 3 } = some c ∧ zoneConflict 7 c s = none ∧ zoneEnabled c = true) ∧
          (s.zone 7).status = .disabled) := by
  refine ⟨⟨test_extreme_zone_blocks_are_good.1.1, test_extreme_zone_blocks_are_good.2.1⟩,
    ⟨takes_of rfl rfl rfl rfl, ?_, ⟨_, rfl, by decide⟩, by decide⟩,
    ⟨takes_of rfl rfl rfl rfl, ?_, ⟨_, rfl, by decide⟩, by decide⟩⟩ <;>
  · simp only [namesNothing, outside]
    decide

/-- The shortest and the longest hold, in both modes. -/
theorem witness_ZoneHoldSetsTheHold :
    (Takes .a (.zoneHold .a 1 1 0xFF 1) running ∧ Takes .a (.zoneHold .a 1 2 3 1440) running) ∧
      zoneOf 1 = some 0 ∧ (running.zone 0).status ≠ .disabled ∧
      ((1 : Byte) = 1 ∧ (0xFF : Byte) = 0xFF ∧ HoldMode.suppress = .suppress) ∧
      ((2 : Byte) = 2 ∧ (3 : Byte) = 3 ∧ HoldMode.assert .wet = .assert .wet) ∧ 1 ≤ (1 : Half).toNat ∧
      (1440 : Half).toNat ≤ 1440 :=
  ⟨⟨takes_of rfl rfl rfl rfl, takes_of rfl rfl rfl rfl⟩, by decide, by decide, by decide, by decide, by decide,
    by decide⟩

/-- Z1 with a hold that ends at this second, at the next, and without one. -/
theorem witness_HoldsEndByReleaseAndExpiry :
    (Takes .b (.zoneRelease .b 1) running ∧ zoneOf 1 = some 0 ∧ (running.zone 0).hold = none) ∧
      (let s := zoneIs (fun r => { r with hold := some ⟨.suppress, .c, 10⟩ });
        Takes .b (.zoneRelease .b 1) s ∧ (s.zone 0).hold = some ⟨.suppress, .c, 10⟩ ∧ (s.now - 10).toNat < 2 ^ 31) ∧
      (let s := zoneIs (fun r => { r with hold := some ⟨.suppress, .c, 11⟩ });
        (s.zone 0).hold = some ⟨.suppress, .c, 11⟩ ∧ 2 ^ 31 ≤ (s.now - 11).toNat) :=
  ⟨⟨takes_of rfl rfl rfl rfl, by decide, by decide⟩, ⟨takes_of rfl rfl rfl rfl, by decide, by decide⟩, by decide⟩

/-- Z1 with no latch, with the latch named, and with another. -/
theorem witness_ZoneAckClearsTheLatch :
    (Takes .a (.zoneAck .a 1 1) running ∧ zoneOf 1 = some 0 ∧ (1 : Half) ≠ 0 ∧ (running.zone 0).latch = none) ∧
      (let s := zoneIs (fun r => { r with latch := some 65535 });
        Takes .a (.zoneAck .a 1 65535) s ∧ (s.zone 0).latch = some (65535 : Half).toNat ∧
          (65534 : Half).toNat ≠ 65535) :=
  ⟨⟨takes_of rfl rfl rfl rfl, by decide, by decide, by decide⟩, takes_of rfl rfl rfl rfl, by decide, by decide⟩

/-- A GOOD completion of line 1 behind one of line 3. -/
def good : Completion := ⟨0, .good ⟨550, 2240⟩, 10000⟩

def other : Completion := ⟨2, .range, 10000⟩

theorem next_good (s : State) (h : s.handed = [other, good]) : NextCompletion 0 good [other] s :=
  ⟨[other], [], h, rfl, rfl, by decide⟩

theorem z1_evaluates (s : State) (h : s.zones = running.zones) : Evaluates 0 0 s := by
  have hz : ∀ y, s.zone y = running.zone y := fun y => by rw [State.zone, h, ← State.zone]
  simp only [Evaluates, hz]
  decide

/-- Configurations against Z1's: the same lines with other numbers, another air line, and none; in each status. -/
theorem witness_transfers :
    (let c := { zoneOn with staleS := 600 };
      zoneOn.air = c.air ∧ (∀ n, n ∈ zoneOn.surfaces ↔ n ∈ c.surfaces) ∧ c.air ≠ none ∧ c.surfaces ≠ []) ∧
      (let c := { zoneOn with air := some 2 }; zoneOn.air ≠ c.air ∧ c.air ≠ none ∧ c.surfaces ≠ []) ∧
      (zoneDefault.air = none ∧ zoneDefault.surfaces = []) ∧ (running.zone 1).status = .disabled ∧
      (running.zone 0).status = .starting ∧ ((zoneIs (fun r => { r with status := .active })).zone 0).status = .active ∧
      ((zoneIs (fun r => { r with status := .unknown })).zone 0).status = .unknown := by decide

/-- No completion, one of no zone, and Z1 with a pending configuration on another air line, and one not enabled. -/
theorem witness_EvaluationsThatDoNotGoOn :
    (∀ d ∈ running.handed, d.line ≠ 0) ∧ NextCompletion 0 good [other] (handedIs [other, good]) ∧
      (NextCompletion 3 ⟨3, .range, 0⟩ [] (handedIs [⟨3, .range, 0⟩]) ∧
        ∀ y, ((handedIs [⟨3, .range, 0⟩]).zone y).active.air ≠ some 3 ∨
          ((handedIs [⟨3, .range, 0⟩]).zone y).status = .disabled) ∧
      (let s := zoneIs (fun r => { r with pendingConfig := some ⟨{ zoneOn with air := some 2 }, .c⟩ });
        Evaluates 0 0 s ∧ (stageOne 0 s).1.active.air ≠ some 0) ∧
      (let s := zoneIs (fun r => { r with pendingConfig := some ⟨zoneDefault, .c⟩ });
        Evaluates 0 0 s ∧ (stageOne 0 s).1.status = .disabled) := by
  refine ⟨by decide, next_good _ rfl, ⟨⟨[], [], rfl, rfl, rfl, by decide⟩, by decide⟩, ?_, ?_⟩ <;>
  · simp only [Evaluates]
    decide

/-- Z1's second and third failure in a row, by RANGE, and by line 2's reading of second 9 one ms too old for 60 s. -/
theorem witness_FailedEvaluationsCount :
    (let s := { zoneIs (fun r => { r with failCount := 1 }) with handed := [⟨0, .range, 10000⟩] };
      s.startup.resetHeld = false ∧ NextCompletion 0 ⟨0, .range, 10000⟩ [] s ∧ Evaluates 0 0 s ∧
        (stageOne 0 s).1.settle.active.air = some 0 ∧ (stageOne 0 s).1.settle.status ≠ .disabled ∧
        min 7 ((stageOne 0 s).1.settle.failCount + 1) < (stageOne 0 s).1.settle.active.failLimit) ∧
      (let s := { zoneIs (fun r => { r with failCount := 2 }) with handed := [good], tick := 8000 * 69001 };
        NextCompletion 0 good [] s ∧ Evaluates 0 0 s ∧ good.result ≠ .range ∧
          (stageOne 0 s).1.settle.active.surfaces = [1] ∧ (stageOne 0 s).1.settle.active.surfaceAgeS = 60 ∧
          (s.line 1).lastGood = some ⟨⟨0, 1420⟩, 9000⟩ ∧ elapsedMs s.nowMs 9000 = 60001 ∧
          (stageOne 0 s).1.settle.status ≠ .unknown ∧
          (stageOne 0 s).1.settle.active.failLimit ≤ min 7 ((stageOne 0 s).1.settle.failCount + 1)) := by
  refine ⟨⟨rfl, ⟨[], [], rfl, rfl, rfl, by decide⟩, ?_, by decide, by decide, by decide⟩,
    ⟨[], [], rfl, rfl, rfl, by decide⟩, ?_, by decide, by decide, by decide, by decide, by decide, by decide,
    by decide⟩ <;>
  · simp only [Evaluates]
    decide

/-- Z1 STARTING, and Z1 ACTIVE at CLEAR where WATCH is the raw level: unchanged, a first count, and confirmed. -/
def activeAt (level : Level) (p : Option PendingLevel) : State :=
  { zoneIs (fun r => { r with status := .active, level := level, pending := p }) with handed := [good] }

/-- The temperatures of `running`'s surface lines young enough for Z1: line 2's alone. -/
def young (n : LineId) : Option Int := if n = 1 then some 1420 else none

theorem young_iff (s : State) (hl : s.lines = running.lines) (ht : s.tick = running.tick) (m : LineId) (k : Int) :
    young m = some k ↔
      ∃ g, (s.line m).lastGood = some g ∧ g.reading.temp = k ∧ elapsedMs s.nowMs g.time ≤ 60 * 1000 := by
  have h : ∀ n, s.line n = running.line n := fun n => by rw [State.line, hl, ← State.line]
  have hm : (running.line m).lastGood = if m = 1 then some ⟨⟨0, 1420⟩, 9000⟩ else none := by
    revert m
    decide
  rw [h, hm, State.nowMs, ht, young]
  by_cases e : m = 1
  · simp only [e, if_true, Option.some.injEq]
    exact ⟨fun hk => ⟨_, rfl, hk, by decide⟩, fun ⟨g, hg, hk, _⟩ => by rw [← hk, ← hg]⟩
  · simp [e]

/-- Z1 STARTING, and ACTIVE at CLEAR where WATCH is the raw level: a first count, and confirmed from 1, and from another
run's level; and ACTIVE at WATCH, which WATCH leaves. -/
theorem witness_SuccessfulEvaluationsDecideTheLevel :
    (let s := handedIs [other, good];
      s.startup.resetHeld = false ∧ NextCompletion 0 good [other] s ∧ Evaluates 0 0 s ∧
        (stageOne 0 s).1.settle.status = .starting ∧ good.result = .good ⟨550, 2240⟩ ∧
        (stageOne 0 s).1.settle.active.surfaceAgeS = 60 ∧
        (∀ m k, young m = some k ↔
          ∃ g, (s.line m).lastGood = some g ∧ g.reading.temp = k ∧ elapsedMs s.nowMs g.time ≤ 60 * 1000) ∧
        (stageOne 0 s).1.settle.active.surfaces.filterMap (fun m => (young m).map (fun k => (m, k))) = (1, 1420) :: []) ∧
      (let raw := rawLevel zoneOn .clear (condensation 2240 550 (1, 1420) [] [] 4).g;
        raw = .watch ∧ Level.clear.rank < raw.rank ∧ zoneOn.worsenConfirm = 2 ∧
          ((⟨raw, 1⟩ : PendingLevel).count < 2 ∧ 2 ≤ (⟨raw, 1 + 1⟩ : PendingLevel).count)) ∧
      (let s := activeAt .clear (some ⟨.watch, 1⟩);
        NextCompletion 0 good [] s ∧ Evaluates 0 0 s ∧ (stageOne 0 s).1.settle.status = .active ∧
          (stageOne 0 s).1.settle.pending = some ⟨.watch, 1⟩) ∧
      (stageOne 0 (activeAt .clear (some ⟨.warn, 1⟩))).1.settle.pending = some ⟨.warn, 1⟩ ∧
      (stageOne 0 (activeAt .clear none)).1.settle.pending = none ∧
      (let s := activeAt .watch none;
        NextCompletion 0 good [] s ∧ Evaluates 0 0 s ∧
          rawLevel zoneOn .watch (condensation 2240 550 (1, 1420) [] [] 4).g = .watch) := by
  refine ⟨⟨rfl, next_good _ rfl, z1_evaluates _ rfl, by decide, rfl, by decide, young_iff _ rfl rfl, by decide⟩,
    by decide, ⟨⟨[], [], rfl, rfl, rfl, by decide⟩, ?_, by decide, by decide⟩, by decide, by decide,
    ⟨[], [], rfl, rfl, rfl, by decide⟩, ?_, by decide⟩ <;>
  · simp only [Evaluates]
    decide

/-- chapter 3's lowered confirmation count: 3 held against 2, and against 1; and one below it. -/
theorem witness_SettlementOfThePendingCount :
    (let r := (activeAt .clear (some ⟨.watch, 3⟩)).zone 0;
      r.pending = some ⟨.watch, 3⟩ ∧ r.level.rank < Level.watch.rank ∧ r.active.worsenConfirm ≤ 3 ∧
        2 ≤ r.active.worsenConfirm) ∧
      (let r := (activeAt .clear (some ⟨.watch, 1⟩)).zone 0;
        1 < r.active.worsenConfirm ∧ r.pending = some ⟨.watch, 1⟩) ∧
      ({ zoneOn with improveConfirm := 1 } : ZoneConfig).improveConfirm = 1 ∧ (running.zone 0).pending = none := by
  decide

/-- Z1's deadline at this second in STARTING, ACTIVE and UNKNOWN, one second later, and absent. -/
theorem witness_StaleDeadlineExpiryTurnsUnknown :
    (let s := zoneIs (fun r => { r with deadline := some 10 });
      s.startup.resetHeld = false ∧ (s.zone 0).deadline = some 10 ∧ (s.now - 10).toNat < 2 ^ 31 ∧
        (s.zone 0).status = .starting) ∧
      ((zoneIs (fun r => { r with deadline := some 10, status := .active })).zone 0).status = .active ∧
      ((zoneIs (fun r => { r with deadline := some 10, status := .unknown })).zone 0).status = .unknown ∧
      (let s := zoneIs (fun r => { r with deadline := some 11 });
        (s.zone 0).deadline = some 11 ∧ 2 ^ 31 ≤ (s.now - 11).toNat) ∧
      (running.zone 1).deadline = none := by decide

/-- Z1 STARTING with its deadline armed, the other zones DISABLED. -/
theorem witness_ZoneRecordsStayInOrder :
    (queued (.holdExpiry 0)).ZonesOk ∧ ∃ t, step (queued (.holdExpiry 0)) = .next t := by
  refine ⟨?_, _, rfl⟩
  have h : ∀ z, (queued (.holdExpiry 0)).zone z = running.zone 0 ∨
      (queued (.holdExpiry 0)).zone z = ZoneRecord.fresh zoneDefault := by decide
  intro z
  rcases h z with h | h <;> rw [h] <;>
    refine ⟨by decide, by decide, by decide, by decide, by decide, by decide, by decide, by decide, by decide, ?_⟩ <;>
    exact none_absurd rfl

theorem witness_LineRolesStayApart :
    (queued (.holdExpiry 0)).RolesOk ∧ ∃ t, step (queued (.holdExpiry 0)) = .next t := by
  refine ⟨?_, _, rfl⟩
  have h : ∀ z y : ZoneId, z ≠ y → ∀ c ∈ ((queued (.holdExpiry 0)).zone z).configs,
      ∀ d ∈ ((queued (.holdExpiry 0)).zone y).configs, c.air = none ∨ (d.air = none ∧ d.surfaces = []) := by decide
  refine ⟨?_, by decide⟩
  intro z y hzy c hc d hd n hn
  rcases h z y hzy c hc d hd with h | ⟨h1, h2⟩
  · rw [h] at hn
    cases hn
  · simp [h1, h2]

/-- A full ring with link A's cursor on its oldest entry and link B's not, the ring after reset, and what meets each clause
about `lagging` and the gather timer: a match lost and gained, backlogs at 31, 32, 47 and 48, a timer that runs, a delay of
0, and one of 2000 ms. -/
theorem witness_PostingAppendsAndDiscards :
    running.queue.RingOk ∧ fullQueue.ring.length = 64 ∧ (fullQueue.ring.head?).map (fun e => e.seq) = some 4001 ∧
      ((fullQueue.cursors.get .a).cursor = 4001 ∧
        matchesFilter (fullQueue.cursors.get .a).settings.filter (.probeOk 0) = true) ∧
      ((fullQueue.cursors.get .b).cursor ≠ 4001 ∧
        matchesFilter (fullQueue.cursors.get .b).settings.filter (.probeOk 0) = false) ∧
      (LaggingAfter true 32 true ∧ LaggingAfter false 47 false ∧ LaggingAfter true 31 false ∧
        LaggingAfter false 48 true) ∧
      (let r := CursorRecord.fresh { linkDefault with gatherMs := 2000 } 4064;
        AttentionAfter 7 fullRing false none
            { r with settings := { r.settings with filter := { r.settings.filter with kinds := 0 } }, backlog := 1,
                     gatherAt := some 16000007 } ∧
          AttentionAfter 7 fullRing false (some 9) { r with backlog := 1, gatherAt := some 9 } ∧
          AttentionAfter 7 fullRing false none
            { r with settings := { r.settings with gatherMs := 0 }, backlog := 1, attention := true } ∧
          AttentionAfter 7 fullRing true none { r with backlog := 1, attention := true }) := by
  refine ⟨⟨by decide, by decide, by decide, trivial, rfl⟩, by decide, by decide, by decide, by decide, ?_, ?_⟩
  · simp [LaggingAfter]
  · have quiet : ∀ e ∈ fullRing, ¬Urgent e.content := by
      intro e he
      simp only [fullRing, List.mem_map] at he
      obtain ⟨k, -, rfl⟩ := he
      exact id
    have ahead : ∀ c, ∀ e ∈ fromCursor fullRing c, ¬Urgent e.content := fun c e he =>
      quiet e ((List.dropWhile_sublist _).mem he)
    refine ⟨?_, ?_, ?_, ?_⟩ <;> simp [AttentionAfter, CursorRecord.fresh] <;>
      exact fun e he hu => absurd hu (ahead _ e he)

theorem fullQueue_ringOk : fullQueue.RingOk := by
  refine ⟨by decide, by decide, by decide, ?_, by decide⟩
  simp only [Consecutive, fullQueue, fullRing, List.range, List.range.loop, List.map]
  decide

/-- The smallest and the largest fetch; a cursor on the ring's oldest entry, and one past its newest. -/
theorem witness_FetchReturnsTheNextMatchingEntries :
    Takes .a (.eventsFetch .a 1) running ∧ Takes .a (.eventsFetch .a 4) running ∧ 1 ≤ (1 : Byte).toNat ∧
      (4 : Byte).toNat ≤ 4 ∧
      fullRing = [] ++ { seq := 4001, time := 0, content := .probeOk 0 } :: fullRing.drop 1 ∧
      ∀ e ∈ fullRing, e.seq ≠ 4065 :=
  ⟨takes_of rfl rfl rfl rfl, takes_of rfl rfl rfl rfl, by decide, by decide, by decide, by decide⟩

/-- `running` with chapter 5's ring, every link's cursor on its oldest entry. -/
def ringed : State :=
  { running with queue :=
      { fullQueue with
        cursors := .all
          { CursorRecord.fresh linkDefault 4001 with backlog := 64, lagging := true, attention := true } } }

theorem ringed_queueOk : ringed.QueueOk := by
  refine ⟨fullQueue_ringOk, fun l => ?_⟩
  have hc : ringed.cursor l =
      { CursorRecord.fresh linkDefault 4001 with backlog := 64, lagging := true, attention := true } := by
    cases l <;> rfl
  rw [hc]
  refine ⟨⟨.inl ⟨{ seq := 4001, time := 0, content := .probeOk 0 }, by decide, rfl⟩, by decide, by decide, by decide,
    by decide, by decide⟩, fun _ => ⟨by decide, by decide, by decide, by decide⟩⟩

/-- Distances 63 (HELD), 64 (OLDER), 32,767 (OLDER) and 32,768 (BAD_ARG) behind seq 4064. -/
theorem witness_SeekPlacesTheCursor :
    (1 ≤ 65535 ∧ 65535 ≤ 65535 ∧ 65534 ≤ 65534) ∧ Takes .c (.eventsSeek .c 2 4001) ringed ∧ ringed.QueueOk ∧
      ringed.queue.ring.head?.map (fun e => e.seq) = some 4001 ∧
      (seqDistance ringed.queue.newest 4001 = 63 ∧ ringed.queue.ring.length = 64) ∧
      seqDistance ringed.queue.newest 4000 = 64 ∧ seqDistance ringed.queue.newest 36832 = 32767 ∧
      seqDistance ringed.queue.newest 36831 = 32768 :=
  ⟨by decide, takes_of rfl rfl rfl rfl, ringed_queueOk, by decide, by decide, by decide, by decide, by decide⟩

/-- The greatest values, and the least with level code 0, CLEAR. -/
theorem witness_LinkSetWritesTheFilter :
    (Takes .a (.linkSet .a 0 2047 3 2000) running ∧ (2047 : Half).toNat < 2048 ∧ (2000 : Half).toNat ≤ 2000 ∧
      (3 : Byte).toNat = 3) ∧
    Takes .c (.linkSet .c 255 0 0 0) running ∧ (0 : Half).toNat < 2048 ∧ (0 : Half).toNat ≤ 2000 ∧
      (0 : Byte).toNat = 0 :=
  ⟨⟨takes_of rfl rfl rfl rfl, by decide, by decide, rfl⟩, takes_of rfl rfl rfl rfl, by decide, by decide, rfl⟩

theorem witness_GatherTimerExpiryAssertsAttention :
    (let s := cursorIs (fun r => { r with attention := false, gatherAt := some 80000000 });
      s.startup.resetHeld = false ∧ (s.cursor .a).gatherAt = some 80000000 ∧ 80000000 ≤ s.tick) ∧
      (running.cursor .a).gatherAt = none ∧
      (let s := cursorIs (fun r => { r with attention := false, gatherAt := some 80000001 });
        (s.cursor .a).gatherAt = some 80000001 ∧ s.tick < 80000001) := by decide

theorem witness_EventQueueStaysInOrder :
    ({ ringed with pending := [.warmupExpiry] } : State).QueueOk ∧
      ∃ t, step { ringed with pending := [.warmupExpiry] } = .next t := ⟨ringed_queueOk, _, rfl⟩

/-- Both polarities and drives, the three causes, and every case of the wanted state and of its turns. -/
theorem witness_WantedStateAndItsTurns :
    ((outIs (fun r => { r with overridden := true, winner := some .a })).out 0).overridden = true ∧
      (let r := (outIs (fun r => { r with winner := some .c })).out 0;
        r.overridden = false ∧ r.winner = some .c) ∧
      ((running.out 0).overridden = false ∧ (running.out 0).winner = none) ∧
    (outDefault.polarity = .activeHigh ∧ outDefault.drive = .pushPull) ∧
      (let c := { outDefault with polarity := .activeLow, drive := .openDrain };
        c.polarity = .activeLow ∧ c.drive = .openDrain) ∧
      (running.out 0).winningClaim = none ∧
      (let r := (outIs (fun r => { r with claims := ⟨some ⟨true, 70⟩, none, none⟩, winner := some .a })).out 0;
        r.winningClaim = some ⟨true, 70⟩) ∧
      (let r := (outIs (fun r => { r with claims := ⟨some ⟨false, 70⟩, none, none⟩, winner := some .a })).out 0;
        r.winningClaim = some ⟨false, 70⟩) ∧
      (let r := (outIs (fun r => { r with wanted := true, outState := .offHeld,
                                          config := { outDefault with safety := true } })).out 0;
        r.wanted = true ∧ r.outState = .offHeld ∧ r.config.safety = true) ∧
      (let r := (outIs (fun r => { r with outState := .onFree })).out 0;
        r.wanted = false ∧ r.outState = .onFree) ∧
      (let r := (outIs (fun r => { r with wanted := true, outState := .onHeld })).out 0;
        r.wanted = true ∧ r.outState = .onHeld) ∧
      ((running.out 0).wanted = false ∧ (running.out 0).outState = .offFree) := by decide

/-- Z1's notice at O1 with Z1 in its mask, and at O2, which does not have it; none at O3. -/
def told : State :=
  (outIs (fun r => { r with config := { outDefault with source := .demand, zoneMask := 1 }, told := [0] })).setOut 1
    { running.out 1 with told := [0] }

theorem witness_ZoneNoticesFormTheDemand :
    told.startup.resetHeld = false ∧ (0 ∈ (told.out 0).told ∧ (told.out 0).config.zoneMask.getLsbD 0 = true) ∧
      (0 ∈ (told.out 1).told ∧ (told.out 1).config.zoneMask.getLsbD 0 = false) ∧ 0 ∉ (told.out 2).told := by decide

/-- The shortest and the longest claim; and claims of the first, of the second alone, of the third alone, and of none. -/
theorem witness_OutClaimStoresTheClaim :
    Takes .a (.outClaim .a 4 0 1) running ∧ Takes .a (.outClaim .a 1 1 1440) running ∧ outOf 4 = some 3 ∧
      (0 : Byte).toNat ≤ 1 ∧ (1 : Byte).toNat ≤ 1 ∧ 1 ≤ (1 : Half).toNat ∧ (1440 : Half).toNat ≤ 1440 ∧
      (let rank : Rank := ⟨.c, .a, .b⟩;
        let claim : Option Claim := some ⟨true, 70⟩;
        PerLink.get ⟨claim, none, claim⟩ rank.first ≠ none ∧
          (PerLink.get ⟨claim, none, none⟩ rank.first = none ∧ PerLink.get ⟨claim, none, none⟩ rank.second ≠ none) ∧
          (PerLink.get ⟨none, claim, none⟩ rank.first = none ∧ PerLink.get ⟨none, claim, none⟩ rank.second = none ∧
            PerLink.get ⟨none, claim, none⟩ rank.third ≠ none) ∧
          ∀ l, (PerLink.all (none : Option Claim)).get l = none) :=
  ⟨takes_of rfl rfl rfl rfl, takes_of rfl rfl rfl rfl, by decide, by decide, by decide, by decide, by decide, by decide,
    by decide, by decide, fun l => by cases l <;> rfl⟩

/-- O1 with B's claim ending at this second, and at the next. -/
def claimed (expiry : Word) : State :=
  outIs (fun r => { r with claims := ⟨none, some ⟨true, expiry⟩, none⟩, winner := some .b })

/-- A's OFF claim, the winner, at its expiry over B's ON claim, on a safety output in OFF_HELD (entry 35). -/
theorem test_claim_expiry_of_a_safety_output :
    let s := outIs (fun r =>
      { r with config := { outDefault with safety := true, minOffS := 600 }, outState := .offHeld, holdStart := some 0,
               claims := ⟨some ⟨false, 10⟩, some ⟨true, 99⟩, none⟩, winner := some .a })
    ∃ t, exec (.claimExpiry 0 .a) s = .next t ∧ (t.out 0).outState = .onFree ∧
      t.queue.ring.map (fun e => e.content) =
        s.queue.ring.map (fun e => e.content) ++ [.claimEnd 0 .a .expired, .output 0 false true .expiry] :=
  ⟨_, rfl, by decide, by decide⟩

theorem witness_ClaimsEndByDropAndExpiry :
    (Takes .b (.outDrop .b 1) running ∧ outOf 1 = some 0 ∧ (running.out 0).claims.get .b = none) ∧
      (Takes .b (.outDrop .b 1) (claimed 10) ∧ ((claimed 10).out 0).claims.get .b = some ⟨true, 10⟩ ∧
        ((claimed 10).now - 10).toNat < 2 ^ 31) ∧
      (((claimed 11).out 0).claims.get .b = some ⟨true, 11⟩ ∧ 2 ^ 31 ≤ ((claimed 11).now - 11).toNat) :=
  ⟨⟨takes_of rfl rfl rfl rfl, by decide, by decide⟩, ⟨takes_of rfl rfl rfl rfl, by decide, by decide⟩, by decide⟩

theorem witness_LinkRankReformsEveryWinner :
    Takes .b (.linkRank .b 3 2 1) running ∧ Link.c ≠ .b ∧ Link.c ≠ .a ∧ Link.b ≠ .a ∧
      (BitVec.ofNat 8 (linkCode .c), BitVec.ofNat 8 (linkCode .b), BitVec.ofNat 8 (linkCode .a)) =
        ((3, 2, 1) : Byte × Byte × Byte) :=
  ⟨takes_of rfl rfl rfl rfl, by decide, by decide, by decide, by decide⟩

/-- Every field at its least and at its greatest value (R106, R107). -/
def leastOut : OutBlock :=
  { source := 0, zoneMask := 0, trigger := 1, safety := 0, polarity := 0, drive := 0, mode := 0, minOnS := 0,
    minOffS := 0, blinkOn := 1, blinkOff := 1 }

def greatestOut : OutBlock :=
  { source := 2, zoneMask := 255, trigger := 3, safety := 1, polarity := 1, drive := 1, mode := 1, minOnS := 600,
    minOffS := 600, blinkOn := 50, blinkOff := 50 }

/-- O1 held ON and held OFF for 600 s from second 0, cut to 10 s, which second 10 has just reached, and to 11 s. -/
theorem witness_OutSetTakesEffectAtOnce :
    (¬badOut leastOut ∧ ¬badOut greatestOut) ∧
    (Takes .a (.outSet .a 1 outBlock) running ∧ outOf 1 = some 0 ∧
        ∃ c, outConfigOf outBlock = some c ∧ c.minOnS = 10 ∧ c.minOffS = 0) ∧
      (let r := (outIs (fun r => { r with config := { outDefault with minOnS := 600 }, outState := .onHeld,
                                          holdStart := some 0 })).out 0;
        r.outState = .onHeld ∧ 10 ≠ r.config.minOnS ∧ r.holdStart = some 0 ∧
          (running.now - (0 + BitVec.ofNat 32 10)).toNat < 2 ^ 31 ∧
          ¬(running.now - (0 + BitVec.ofNat 32 11)).toNat < 2 ^ 31) ∧
      (let r := (outIs (fun r => { r with config := { outDefault with minOffS := 600 }, outState := .offHeld,
                                          holdStart := some 0 })).out 0;
        r.outState = .offHeld ∧ 0 ≠ r.config.minOffS) :=
  ⟨⟨by unfold badOut; decide, by unfold badOut; decide⟩,
    ⟨takes_of rfl rfl rfl rfl, by decide, _, rfl, rfl, rfl⟩, by decide, by decide⟩

/-- A minimum hold of 10 s and one of 11 s begun at second 0, an on phase due at this ms and the next, and neither. -/
theorem witness_MinimumHoldsAndBlinkPhasesEnd :
    (let r := (outIs (fun r => { r with config := { outDefault with minOnS := 10 }, outState := .onHeld,
                                        holdStart := some 0 })).out 0;
      r.holdStart = some 0 ∧ r.outState = .onHeld ∧ 10 = r.config.minOnS ∧
        (running.now - (0 + BitVec.ofNat 32 10)).toNat < 2 ^ 31 ∧
        ¬(running.now - (0 + BitVec.ofNat 32 11)).toNat < 2 ^ 31) ∧
      (let r := (outIs (fun r => { r with config := { outDefault with minOffS := 10 }, outState := .offHeld,
                                          holdStart := some 0 })).out 0;
        r.holdStart = some 0 ∧ r.outState = .offHeld ∧ 10 = r.config.minOffS) ∧
      ((running.out 0).holdStart = none ∧ (running.out 0).blink = none) ∧
      (let r := (outIs (fun r => { r with config := { outDefault with mode := .blink }, outState := .onFree,
                                          blink := some ⟨true, 10000⟩ })).out 0;
        r.blink = some ⟨true, 10000⟩ ∧
          elapsedMs running.nowMs 10000 < 2147483648000 ∧ ¬elapsedMs running.nowMs 10001 < 2147483648000 ∧
          r.config.mode = .blink) := by decide

/-- A safety output held ON for its demand, the others OFF. -/
def demanded : State :=
  outIs (fun r =>
    { r with config := { outDefault with source := .demand, zoneMask := 1, safety := true, minOnS := 600 },
             demand := true, wanted := true, outState := .onHeld, holdStart := some 9, pin := .high })

theorem witness_OutputRecordsStayInOrder :
    ({ demanded with pending := [.minHoldExpiry 0] } : State).OutsOk ∧
      ∃ t, step { demanded with pending := [.minHoldExpiry 0] } = .next t := by
  refine ⟨⟨by decide, ?_⟩, _, rfl⟩
  have h : ∀ o, ({ demanded with pending := [.minHoldExpiry 0] } : State).out o = demanded.out 0 ∨
      ({ demanded with pending := [.minHoldExpiry 0] } : State).out o = OutRecord.fresh outDefault := by decide
  intro o
  rcases h o with h | h <;> rw [h] <;>
    exact ⟨by decide, by decide, by decide, by decide, by decide, by decide, by decide, by decide, by decide, by decide⟩

theorem witness_SaveAndItsCompletion :
    (Takes .a (.save .a) running ∧ running.store.state = .idle) ∧
      (Takes .a (.save .a) writing ∧ writing.store.state ≠ .idle) ∧ writing.startup.resetHeld = false ∧
      writing.store.state = .writing settingsDefault ∧ writing.startup.restart = none ∧
      (let s : State := { writing with startup := (restarting true).startup };
        s.startup.restart = some ⟨.a, true⟩ ∧ s.store.state = .writing settingsDefault) :=
  ⟨⟨takes_of rfl rfl rfl rfl, rfl⟩, ⟨takes_of rfl rfl rfl rfl, by decide⟩, rfl, rfl, rfl, rfl, rfl⟩

/-- An image as a completed write leaves it, which a full reset accepts: Z1 on the lines of `running`, and O1 on its
demand. -/
def savedSettings : Settings :=
  { settingsDefault with
    lines := (settingsDefault.lines.set 0 air).set 1 surface
    zones := settingsDefault.zones.set 0 zoneOn
    outs := settingsDefault.outs.set 0 { outDefault with source := .demand, zoneMask := 1 } }

def savedImage : Image :=
  { valid := true, content := savedSettings, check := Config.checkValue savedSettings }

/-- The saved image is accepted, the blank one is not, and the demand of O1 after the load is ON. -/
theorem witness_FullResetLoadsAndStarts :
    (savedImage.valid = true ∧ savedImage.check = Config.checkValue savedImage.content ∧
        WithinTheRules savedImage.content) ∧
      (running.store.image.valid && decide (running.store.state = .idle)) = false ∧
      (savedSettings.outs[0].source = .demand ∧ savedSettings.outs[0].zoneMask.getLsbD 0 = true ∧
        savedSettings.zones[0].air ≠ none ∧ savedSettings.zones[0].surfaces ≠ [] ∧
        savedSettings.outs[0].trigger.rank ≤ savedSettings.zones[0].failLevel.rank) :=
  ⟨⟨rfl, rfl, (settingsAccepted_iff savedSettings).1 (by decide)⟩, rfl, by decide⟩

theorem witness_RestartPendsAndClearsTheDynamicState :
    running.startup.resetHeld = false ∧ Takes .c (.restart .c) running ∧
      (restarting false).startup.restart = some ⟨.a, false⟩ ∧
      ((restarting true).startup.restart = some ⟨.a, true⟩ ∧ (restarting true).store.state = .idle) ∧
      (((restarting true).zone 0).active.air ≠ none ∧ ((restarting true).zone 0).active.surfaces ≠ []) ∧
      ((restarting true).zone 1).active.air = none ∧ (restarting true).warm = false ∧
      ({ restarting true with startup := { (restarting true).startup with warmupAt := some 1 } } : State).warm = true :=
  ⟨rfl, takes_of rfl rfl rfl rfl, rfl, ⟨rfl, rfl⟩, by decide, by decide, by decide, by decide⟩

theorem witness_ResetPinStopsThePart :
    running.store.state = .idle ∧ writing.store.state ≠ .idle ∧
      (startupIs (fun u => { u with resetHeld := true })).startup.resetHeld = true ∧
      (∀ p x, Instr.captureTick 0 ≠ .fullReset p x) ∧ Instr.captureTick 0 ≠ .resetPinHeldLow :=
  ⟨rfl, by decide, rfl, nofun, by decide⟩

/-- The warm-up due at its 4 s, one tick before it, and over. -/
theorem witness_WarmupExpiryStartsMeasurement :
    (let s : State := { State.reset with tick := 32000000 };
      s.startup.resetHeld = false ∧ s.startup.warmupAt = some 32000000 ∧ 32000000 ≤ s.tick) ∧
      (let s : State := { State.reset with tick := 31999999 };
        s.startup.warmupAt = some 32000000 ∧ s.tick < 32000000) ∧ running.startup.warmupAt = none := by decide

/-- Link A in BODY with its length byte and one more, and a restart pending that its response has not freed. -/
def busy : State :=
  { (restarting false).setLink .a { LinkRecord.fresh with rx := .body, buffer := [61, 1], gapAt := some 80160000 } with
    pending := [.gapTimerExpiry .a] }

theorem witness_LinksStoreAndStartupStayInOrder :
    busy.LinksOk ∧ busy.StartupOk ∧ ∃ t, step busy = .next t := by
  refine ⟨?_, ⟨by decide, by decide, ?_⟩, _, rfl⟩
  · intro l
    cases l
    · exact ⟨fun _ => ⟨61, [1], rfl, by decide⟩, by decide, by decide, by decide, by decide, by decide, by decide⟩
    all_goals
      exact ⟨fun h => absurd h (by decide), by decide, by decide, by decide, by decide, by decide, by decide⟩
  · intro _ p hp
    obtain rfl : (⟨.a, false⟩ : RestartPending) = p := Option.some.inj hp
    decide

end Sys2Proof.Machine.Tests
end

/-! ## The zone table's operations -/

section
/-!
SUPPORT. What one zone's record, the entries posted and the outputs told are after each operation of the zone table.
-/

namespace Sys2Proof.Machine

/-! ### Frames -/

theorem ChangesOnly.same {ps : List Part} {s t : State} (h : ChangesOnly ps s t) (p : Part) (hp : p ∉ ps) :
    p.Same s t := h p hp

/-- Where the zone records are the same, each one is. -/
theorem State.zone_congr {s t : State} (h : t.zones = s.zones) (z : ZoneId) : t.zone z = s.zone z := by
  rw [State.zone, h, ← State.zone]

theorem State.line_congr {s t : State} (h : t.lines = s.lines) (n : LineId) : t.line n = s.line n := by
  rw [State.line, h, ← State.line]

theorem State.out_congr {s t : State} (h : t.outs = s.outs) (o : OutId) : t.out o = s.out o := by
  rw [State.out, h, ← State.out]

/-- One zone's record is `r`, these entries are posted, and nothing else has changed. -/
structure ZoneWritten (z : ZoneId) (r : ZoneRecord) (cs : List Content) (s t : State) : Prop where
  frame : ChangesOnly [.zones, .queue] s t
  only : OnlyZone z s t
  record : t.zone z = r
  posts : Posts cs s t

/-- One zone's record is `r`, these entries are posted, the outputs are told if `told` holds, and nothing else has
changed. -/
structure ZoneInformed (z : ZoneId) (r : ZoneRecord) (cs : List Content) (told : Prop) (s t : State) : Prop where
  frame : ChangesOnly [.zones, .queue, .outs] s t
  only : OnlyZone z s t
  record : t.zone z = r
  posts : Posts cs s t
  tells : Tells z told s t

theorem ZoneWritten.refl (z : ZoneId) (s : State) : ZoneWritten z (s.zone z) [] s s :=
  ⟨.refl _ _, fun _ _ => rfl, rfl, .nil rfl⟩

theorem ZoneWritten.trans {z : ZoneId} {q r : ZoneRecord} {cs ds : List Content} {s t u : State}
    (h : ZoneWritten z q cs s t) (k : ZoneWritten z r ds t u) : ZoneWritten z r (cs ++ ds) s u where
  frame := (h.frame.trans k.frame).mono (by decide)
  only y hy := (k.only y hy).trans (h.only y hy)
  record := k.record
  posts := h.posts.trans k.posts (h.frame .tick (by decide))

theorem State.setZone_written (z : ZoneId) (r : ZoneRecord) (s : State) : ZoneWritten z r [] s (s.setZone z r) where
  frame := (s.setZone_changesOnly z r).mono (by decide)
  only _ hy := s.setZone_zone_other z r hy
  record := s.setZone_zone_self z r
  posts := .nil rfl

theorem State.post_written (z : ZoneId) (c : Content) (s : State) : ZoneWritten z (s.zone z) [c] s (s.post c) where
  frame := (s.post_changesOnly c).mono (by decide)
  only _ _ := rfl
  record := rfl
  posts := (Posts.nil rfl).post rfl c

/-- A zone's event ends with its notice to the outputs (R65). -/
theorem ZoneWritten.inform {z : ZoneId} {r : ZoneRecord} {cs : List Content} {s u : State}
    (h : ZoneWritten z r cs s u) (before : ZoneRecord) (touched : Bool) :
    ZoneInformed z r cs (before.effective ≠ r.effective ∨ touched = true) s (u.inform z before touched) := by
  obtain ⟨frame, tells⟩ := State.inform_spec z before touched u
  have zones : (u.inform z before touched).zones = u.zones := frame .zones (by decide)
  rw [h.record] at tells
  exact
    { frame := (h.frame.trans frame).mono (by decide)
      only := fun y hy => (State.zone_congr zones y).trans (h.only y hy)
      record := (State.zone_congr zones z).trans h.record
      posts := (frame .queue (by decide) : _ = u.queue).trans h.posts
      tells := tells.congr Iff.rfl (h.frame .outs (by decide)) }

/-! ### Transfer -/

@[simp] theorem ZoneRecord.takeConfig_epoch (c : ZoneConfig) (r : ZoneRecord) :
    (r.takeConfig c).epoch = r.epoch + 1 := by
  unfold ZoneRecord.takeConfig
  split_ifs <;> rfl

/-- Every transfer counts the epoch on by one (R18 step 2). -/
@[simp] theorem ZoneRecord.transfer_epoch (now : Word) (warm : Bool) (c : ZoneConfig) (r : ZoneRecord) :
    (r.transfer now warm c).epoch = r.epoch + 1 := by
  unfold ZoneRecord.transfer
  split <;> exact r.takeConfig_epoch c

theorem ZoneRecord.transfer_disabled {r : ZoneRecord} (h : r.status = .disabled) (now : Word) (warm : Bool)
    (c : ZoneConfig) :
    r.transfer now warm c =
      if zoneEnabled c then
        { r.takeConfig c with status := .starting, level := .clear, deadline := startingDeadline now warm c }
      else r.takeConfig c := by
  unfold ZoneRecord.transfer
  rw [h]
  cases zoneEnabled c <;> rfl

theorem ZoneRecord.transfer_of_ne_disabled {r : ZoneRecord} (h : r.status ≠ .disabled) (now : Word) (warm : Bool)
    (c : ZoneConfig) :
    r.transfer now warm c =
      if zoneEnabled c then r.takeConfig c
      else
        { r.takeConfig c with status := .disabled, deadline := none, pending := none, unknownReason := none } := by
  unfold ZoneRecord.transfer
  generalize hs : r.status = status at h ⊢
  cases status with
  | disabled => exact absurd rfl h
  | _ => cases zoneEnabled c <;> rfl

/-- A transfer at a zone: the record by R18 to R20 and its CONFIG entry with the new epoch. -/
theorem State.transfer_written (z : ZoneId) (l : Link) (c : ZoneConfig) (s : State) :
    ZoneWritten z ((s.zone z).transfer s.now s.warm c) [.config (.zone z ((s.zone z).epoch + 1)) l] s
      (s.transfer z l c) := by
  have h := (s.setZone_written z ((s.zone z).transfer s.now s.warm c)).trans
    (State.post_written z (.config (.zone z ((s.zone z).transfer s.now s.warm c).epoch) l) _)
  simp only [State.setZone_zone_self, ZoneRecord.transfer_epoch, List.nil_append] at h
  rw [State.transfer, ZoneRecord.transfer_epoch]
  exact h

/-- Stage 1 of an evaluation, and the last step of a deadline's expiry (R17, R43). -/
theorem State.transferPending_written (z : ZoneId) (s : State) :
    ZoneWritten z (stageOne z s).1 (stageOne z s).2 s (s.transferPending z) := by
  obtain ⟨frame, only, record, posts⟩ := State.transferPending_spec z s
  exact ⟨frame, only, record, posts⟩

/-- A transfer touches neither hold nor latch. -/
theorem ZoneRecord.transfer_hold_latch (now : Word) (warm : Bool) (c : ZoneConfig) (r : ZoneRecord) :
    (r.transfer now warm c).hold = r.hold ∧ (r.transfer now warm c).latch = r.latch := by
  have kept : (r.takeConfig c).hold = r.hold ∧ (r.takeConfig c).latch = r.latch := by
    unfold ZoneRecord.takeConfig
    split_ifs <;> exact ⟨rfl, rfl⟩
  unfold ZoneRecord.transfer
  split <;> exact kept

/-! ### Evaluations -/

/-- An evaluation that stage 1 ends: the transfer is all that happened (R43). -/
theorem State.evaluate_stops {z : ZoneId} {n : LineId} {s : State} (c : Converted)
    (h : (stageOne z s).1.active.air ≠ some n ∨ (stageOne z s).1.status = .disabled) :
    ZoneInformed z (stageOne z s).1 (stageOne z s).2 ((s.zone z).effective ≠ (stageOne z s).1.effective) s
      (s.evaluate z n c) := by
  have written := s.transferPending_written z
  have stops : s.evaluate z n c = (s.transferPending z).inform z (s.zone z) false := by
    unfold State.evaluate
    simp only [written.record]
    rw [if_neg (by tauto)]
  rw [stops]
  simpa using written.inform (s.zone z) false

/-- An evaluation that goes on leaves the record that stages 2 to 8 make of the transferred one, its latch apart. -/
theorem State.evaluate_goesOn {z : ZoneId} {n : LineId} {s : State} (c : Converted)
    (h : (stageOne z s).1.active.air = some n) (h' : (stageOne z s).1.status ≠ .disabled) :
    ChangesOnly [.zones, .queue, .outs] s (s.evaluate z n c) ∧ OnlyZone z s (s.evaluate z n c) ∧
      ∃ latch, (s.evaluate z n c).zone z =
        { ((s.transferPending z).judge c (stageOne z s).1.settle).1 with latch := latch } := by
  have written := s.transferPending_written z
  have goes : s.evaluate z n c =
      let judged := (s.transferPending z).judge c (stageOne z s).1.settle
      let posted := ((s.transferPending z).setZone z judged.1).postLevelOpt z judged.2
      posted.1.inform z (s.zone z) posted.2 := by
    unfold State.evaluate
    simp only [written.record]
    rw [if_pos ⟨h, h'⟩]
  obtain ⟨frame, only, record, -, -⟩ := State.writeZone_spec z (s.zone z)
    ((s.transferPending z).judge c (stageOne z s).1.settle).1
    ((s.transferPending z).judge c (stageOne z s).1.settle).2 (s.transferPending z)
  rw [goes]
  refine ⟨(written.frame.trans frame).mono (by decide), fun y hy => (only y hy).trans (written.only y hy), ?_⟩
  rw [record]
  split_ifs
  · exact ⟨_, rfl⟩
  · exact ⟨_, rfl⟩

/-- Stages 3 to 8 fail the evaluation or record a success and decide the level (R45 to R55). -/
theorem State.judge_cases (c : Converted) (r : ZoneRecord) (s : State) :
    (∃ why, s.judge c r = r.fail why) ∨
      ∃ airT rh saturated aged x, s.judge c r = (r.recordSuccess s.now airT rh saturated aged x).decideLevel x := by
  unfold State.judge
  rcases c with x | x | -
  · rcases s.usable r.active with - | ⟨u, us⟩
    · exact .inl ⟨.noSurface, rfl⟩
    · exact .inr ⟨_, _, _, _, _, rfl⟩
  · rcases s.usable r.active with - | ⟨u, us⟩
    · exact .inl ⟨.noSurface, rfl⟩
    · exact .inr ⟨_, _, _, _, _, rfl⟩
  · exact .inl ⟨.airBad, rfl⟩

/-- EVALUATION_EVENT with no completion of the line handed over does nothing. -/
theorem execEvaluationEvent_none {n : LineId} {s : State} (h : takeHanded n s.handed = none) :
    execEvaluationEvent n s = .next s := by
  unfold execEvaluationEvent State.unlessHeld
  simp only [h, ite_self]

/-- EVALUATION_EVENT hands the oldest completion of the line to the zone table (R41, R138). -/
theorem execEvaluationEvent_some {n : LineId} {c : Completion} {rest : List Completion} {s : State}
    (hs : s.startup.resetHeld = false) (h : takeHanded n s.handed = some (c, rest)) :
    execEvaluationEvent n s = .next ({ s with handed := rest }.takeCompletion c) := by
  rw [execEvaluationEvent, State.unlessHeld_of _ _ hs, h]

/-! ### The stale deadline -/

/-- The LEVEL entry of a change to UNKNOWN sets no latch (R74). -/
@[simp] theorem ZoneRecord.unknownNotice_latches (why : UnknownReason) (r : ZoneRecord) (held : Bool) :
    (r.unknownNotice why).latches held = false := by
  cases held <;> simp [LevelNotice.latches, ZoneRecord.unknownNotice]

/-- A STARTING or ACTIVE zone turns UNKNOWN, its LEVEL entry posted (R57). -/
theorem State.turnUnknown_written (z : ZoneId) (why : UnknownReason) (old : ZoneRecord) (r : ZoneRecord) (s : State) :
    ZoneWritten z (r.turnUnknown why)
        [.level z old.condition .unknown r.suppressed false false (some why) 0 0] s
        ((s.setZone z (r.turnUnknown why)).postLevel z (old.unknownNotice why)).1 ∧
      ((s.setZone z (r.turnUnknown why)).postLevel z (old.unknownNotice why)).2 = false := by
  obtain ⟨latched, frame, only, record, posts⟩ :=
    State.postLevel_spec z (old.unknownNotice why) (s.setZone z (r.turnUnknown why))
  simp only [State.setZone_zone_self, ZoneRecord.unknownNotice_latches] at latched record posts
  exact ⟨(s.setZone_written z (r.turnUnknown why)).trans ⟨frame, only, by simpa using record, posts⟩, latched⟩

/-- The expiry in STARTING and ACTIVE: UNKNOWN with reason STALE and its LEVEL entry, then the transfer (R57, R58). -/
theorem State.expireDeadline_turnsUnknown (z : ZoneId) (s : State)
    (h : (s.zone z).status = .starting ∨ (s.zone z).status = .active) :
    let u := ({ s.zone z with deadline := none } : ZoneRecord).turnUnknown .stale
    let after := stageOne z (s.setZone z u)
    ZoneInformed z after.1
      (.level z (s.zone z).condition .unknown (s.zone z).suppressed false false (some .stale) 0 0 :: after.2)
      ((s.zone z).effective ≠ after.1.effective) s (s.expireDeadline z) := by
  intro u after
  obtain ⟨turned, silent⟩ := State.turnUnknown_written z .stale (s.zone z) { s.zone z with deadline := none } s
  let s1 := ((s.setZone z u).postLevel z ((s.zone z).unknownNotice .stale)).1
  have expires : s.expireDeadline z = (s1.transferPending z).inform z (s.zone z) false := by
    rw [← silent]
    rcases h with h | h <;> simp only [State.expireDeadline, h] <;> rfl
  have same : stageOne z s1 = after := by
    have zone : s1.zone z = (s.setZone z u).zone z := turned.record.trans (s.setZone_zone_self z u).symm
    have now : s1.now = (s.setZone z u).now := congrArg uptimeOf (turned.frame .tick (by decide))
    have warm : s1.warm = (s.setZone z u).warm := congrArg (·.warmupAt.isSome) (turned.frame .startup (by decide))
    simp only [after, stageOne, zone, now, warm]
  have written := turned.trans (s1.transferPending_written z)
  rw [same] at written
  rw [expires]
  have informed := written.inform (s.zone z) false
  simp only [Bool.false_eq_true, or_false] at informed
  exact informed

/-- The expiry in UNKNOWN: the deadline is absent and a pending configuration is transferred (R58). -/
theorem State.expireDeadline_unknown (z : ZoneId) (s : State) (h : (s.zone z).status = .unknown) :
    let after := stageOne z (s.setZone z { s.zone z with deadline := none })
    ZoneInformed z after.1 after.2 ((s.zone z).effective ≠ after.1.effective) s (s.expireDeadline z) := by
  intro after
  have written := (s.setZone_written z { s.zone z with deadline := none }).trans
    (State.transferPending_written z (s.setZone z { s.zone z with deadline := none }))
  have expires : s.expireDeadline z =
      ((s.setZone z { s.zone z with deadline := none }).transferPending z).inform z (s.zone z) false := by
    simp only [State.expireDeadline, h]
  rw [expires]
  simpa using written.inform (s.zone z) false

theorem State.expireDeadline_disabled (z : ZoneId) (s : State) (h : (s.zone z).status = .disabled) :
    s.expireDeadline z = s.setZone z { s.zone z with deadline := none } := by
  simp only [State.expireDeadline, h]

/-! ### Zone requests that act -/

/-- An accepted ZONE SET on a DISABLED zone: the transfer at once (R14). -/
theorem acceptZoneSet_disabled {z : ZoneId} {s : State} (l : Link) (c : ZoneConfig)
    (h : (s.zone z).status = .disabled) :
    let r := (s.zone z).transfer s.now s.warm c
    ZoneInformed z r [.config (.zone z ((s.zone z).epoch + 1)) l] ((s.zone z).effective ≠ r.effective) s
        (acceptZoneSet l z c s).state ∧
      (acceptZoneSet l z c s).status = .done ∧ (acceptZoneSet l z c s).body = [(s.zone z).epoch + 1] := by
  intro r
  have informed := (s.transfer_written z l c).inform (s.zone z) false
  simp only [acceptZoneSet, h, if_true, informed.record, ZoneRecord.transfer_epoch]
  exact ⟨by simpa using informed, trivial, trivial⟩

/-- An accepted ZONE SET on any other zone waits as the pending configuration (R15). -/
theorem acceptZoneSet_waits {z : ZoneId} {s : State} (l : Link) (c : ZoneConfig) (h : (s.zone z).status ≠ .disabled) :
    acceptZoneSet l z c s =
      { state := s.setZone z { s.zone z with pendingConfig := some ⟨c, l⟩ }, status := .accepted,
        body := [(s.zone z).epoch] } := by
  simp only [acceptZoneSet, h, if_false]

/-- A hold set: the record and its HOLD entry (R68). -/
theorem State.setHold_informed (l : Link) (z : ZoneId) (m : HoldMode) (minutes : Nat) (s : State) :
    let r := { s.zone z with hold := some { mode := m, link := l, expiry := secondsAfter s.now (60 * minutes) } }
    ZoneInformed z r [.hold z l m minutes] ((s.zone z).effective ≠ r.effective) s (s.setHold l z m minutes) := by
  intro r
  unfold State.setHold
  simpa using ((s.setZone_written z r).trans (State.post_written z (.hold z l m minutes) _)).inform (s.zone z) false

/-- A hold ended: the record and its HOLD_END entry (R69, R70). -/
theorem State.endHold_informed (z : ZoneId) (cause : HoldEndCause) (l : Link) (s : State) :
    let r := { s.zone z with hold := none }
    ZoneInformed z r [.holdEnd z cause l] ((s.zone z).effective ≠ r.effective) s (s.endHold z cause l) := by
  intro r
  unfold State.endHold
  simpa using ((s.setZone_written z r).trans (State.post_written z (.holdEnd z cause l) _)).inform (s.zone z) false

/-- A latch cleared: the record, its ACK entry, and every output told (R76). -/
theorem State.clearLatch_informed (l : Link) (z : ZoneId) (seq : Nat) (s : State) :
    ZoneInformed z { s.zone z with latch := none } [.ack z l seq] True s (s.clearLatch l z seq) := by
  unfold State.clearLatch
  simpa using ((s.setZone_written z { s.zone z with latch := none }).trans
    (State.post_written z (.ack z l seq) _)).inform (s.zone z) true

end Sys2Proof.Machine
end

/-! ## What a command does to the zone table -/

section
/-!
SUPPORT. The frames of the operations that leave zones, line configurations and warm-up alone, and the inversion of
`exec` for the zone table: what a command can do to the zone records and to what their rules read.
-/

namespace Sys2Proof.Machine

/-! ### Frames of the other blocks' operations -/

theorem State.fetch_changesOnly (l : Link) (n : Nat) (s : State) : ChangesOnly [.queue] s (s.fetch l n) := by
  unfold State.fetch
  exact s.setCursor_changesOnly l _

theorem State.seek_changesOnly (l : Link) (cursor : Nat) (o : SeekOutcome) (s : State) :
    ChangesOnly [.queue] s (s.seek l cursor o) := s.setCursor_changesOnly l _

theorem State.writeLink_changesOnly (l : Link) (c : LinkSettings) (s : State) :
    ChangesOnly [.queue] s (s.writeLink l c) :=
  ((s.setCursor_changesOnly l _).trans (State.post_changesOnly _ _)).mono (by decide)

theorem State.actOut_changesOnly (o : OutId) (cause : Option OutCause) (s : State) :
    ChangesOnly [.queue, .outs] s (s.actOut o cause) := (s.actOut_spec o cause).1

theorem State.settleOut_changesOnly (o : OutId) (cause : Option OutCause) (s : State) :
    ChangesOnly [.queue, .outs] s (s.settleOut o cause) := (s.settleOut_spec o cause).1

theorem State.demandOut_changesOnly (o : OutId) (s : State) : ChangesOnly [.queue, .outs] s (s.demandOut o) :=
  ((s.setOut_changesOnly o _).trans (State.settleOut_changesOnly o none _)).mono (by decide)

theorem State.winnerOut_changesOnly (o : OutId) (cause : Option OutCause) (s : State) :
    ChangesOnly [.queue, .outs] s (s.winnerOut o cause) :=
  ((s.setOut_changesOnly o _).trans (State.settleOut_changesOnly o cause _)).mono (by decide)

theorem State.writeOut_changesOnly (l : Link) (o : OutId) (c : OutConfig) (s : State) :
    ChangesOnly [.queue, .outs] s (s.writeOut l o c) := by
  have configured := (s.setOut_changesOnly o { s.out o with config := c }).trans
    (State.post_changesOnly _ (.config (.output o) l))
  unfold State.writeOut
  exact (((configured.trans (State.setOut_changesOnly _ o _)).trans (State.demandOut_changesOnly o _)).trans
    (State.setOut_changesOnly _ o _)).mono (by decide)

theorem State.setClaim_changesOnly (o : OutId) (l : Link) (c : Option Claim) (s : State) :
    ChangesOnly [.outs] s (s.setClaim o l c) := s.setOut_changesOnly o _

theorem State.storeClaim_changesOnly (l : Link) (o : OutId) (on : Bool) (minutes : Nat) (s : State) :
    ChangesOnly [.queue, .outs] s (s.storeClaim l o on minutes) := by
  have stored : ∀ u : State, ChangesOnly [.queue, .outs] u
      ((u.setClaim o l (some { on := on, expiry := secondsAfter s.now (60 * minutes) })).winnerOut o none) := fun u =>
    ((State.setClaim_changesOnly o l _ u).trans (State.winnerOut_changesOnly o none _)).mono (by decide)
  unfold State.storeClaim
  split_ifs
  · exact ((s.post_changesOnly _).trans (stored _)).mono (by decide)
  · exact stored s

theorem State.endClaim_changesOnly (o : OutId) (l : Link) (cause : ClaimEndCause) (turn : Option OutCause) (s : State) :
    ChangesOnly [.queue, .outs] s (s.endClaim o l cause turn) :=
  (((s.setClaim_changesOnly o l none).trans (State.post_changesOnly _ _)).trans
    (State.winnerOut_changesOnly o turn _)).mono (by decide)

/-- A frame that every event of a run keeps is the frame of the run. -/
theorem ChangesOnly.foldl {α : Type} {ps : List Part} {f : State → α → State}
    (h : ∀ s x, ChangesOnly ps s (f s x)) (xs : List α) (s : State) : ChangesOnly ps s (xs.foldl f s) := by
  induction xs generalizing s with
  | nil => exact .refl ps s
  | cons x xs ih => exact ((h s x).trans (ih (f s x))).mono (by simp)

theorem State.writeRank_changesOnly (l : Link) (rank : Rank) (s : State) :
    ChangesOnly [.rank, .queue, .outs] s (s.writeRank l rank) := by
  have written : ChangesOnly [.rank] s { s with rank := rank } := by
    intro p hp
    cases p with
    | rank => exact absurd (by decide) hp
    | _ => rfl
  have ranked := written.trans (State.post_changesOnly { s with rank := rank } (.config .rank l))
  exact (ranked.trans (ChangesOnly.foldl (fun s o => State.winnerOut_changesOnly o none s) _ _)).mono (by decide)

theorem State.startWrite_changesOnly (s : State) : ChangesOnly [.store] s s.startWrite := by
  intro p hp
  cases p with
  | store => exact absurd (by decide) hp
  | _ => rfl

theorem State.completeWrite_changesOnly (snapshot : Settings) (ok : Bool) (s : State) :
    ChangesOnly [.store, .queue] s (s.completeWrite snapshot ok) := by
  intro p hp
  cases p with
  | store | queue => exact absurd (by decide) hp
  | _ => rfl

theorem State.dispatch_changesOnly (l : Link) (kind : Byte) (body : List Byte) (s : State) :
    ChangesOnly [.links] s (s.dispatch l kind body) := by
  unfold State.dispatch
  split
  · exact s.respond_changesOnly l _ _ _
  · exact s.respond_changesOnly l _ _ _
  · split_ifs
    · exact s.respond_changesOnly l _ _ _
    · exact s.setLink_changesOnly l _

theorem State.checkFrame_changesOnly (l : Link) (check : Byte) (s : State) :
    ChangesOnly [.links] s (s.checkFrame l check) := by
  simp only [State.checkFrame]
  split
  · split
    · exact s.dispatch_changesOnly l _ _
    · exact .refl _ _
  · exact s.setLink_changesOnly l _

/-- A character touches its link's record alone (R160). -/
theorem State.receive_changesOnly (l : Link) (ch : Character) (s : State) :
    ChangesOnly [.links] s (s.receive l ch) := by
  have writes : ∀ r, ChangesOnly [.links] s (s.setLink l r) := s.setLink_changesOnly l
  simp only [State.receive]
  split
  case h_1 =>
    split_ifs
    · exact writes _
    · exact .refl _ s
  case h_2 => split_ifs <;> exact writes _
  case h_3 =>
    split_ifs
    · exact writes _
    · exact s.checkFrame_changesOnly l _
    · exact writes _
  all_goals exact writes _

/-! ### What the rules of the zone table read -/

/-- The zone records, the configurations of the lines and the warm-up are as before. -/
structure ZoneTableKept (s t : State) : Prop where
  zones : t.zones = s.zones
  config : ∀ n, (t.line n).config = (s.line n).config
  warmup : t.startup.warmupAt = s.startup.warmupAt

theorem ZoneTableKept.refl (s : State) : ZoneTableKept s s := ⟨rfl, fun _ => rfl, rfl⟩

theorem ZoneTableKept.trans {s t u : State} (h : ZoneTableKept s t) (k : ZoneTableKept t u) : ZoneTableKept s u :=
  ⟨k.zones.trans h.zones, fun n => (k.config n).trans (h.config n), k.warmup.trans h.warmup⟩

theorem ZoneTableKept.zone {s t : State} (h : ZoneTableKept s t) (z : ZoneId) : t.zone z = s.zone z :=
  State.zone_congr h.zones z

theorem ZoneTableKept.warm {s t : State} (h : ZoneTableKept s t) : t.warm = s.warm :=
  congrArg Option.isSome h.warmup

theorem ChangesOnly.config {ps : List Part} {s t : State} (h : ChangesOnly ps s t) (hl : Part.lines ∉ ps)
    (n : LineId) : (t.line n).config = (s.line n).config := by
  rw [State.line_congr (h .lines hl)]

theorem ChangesOnly.warmup {ps : List Part} {s t : State} (h : ChangesOnly ps s t) (hu : Part.startup ∉ ps) :
    t.startup.warmupAt = s.startup.warmupAt := congrArg Startup.warmupAt (h .startup hu)

/-- A command that changes neither zones nor lines nor start-up control leaves what the zone table reads. -/
theorem ChangesOnly.zoneTableKept {ps : List Part} {s t : State} (h : ChangesOnly ps s t) (hz : Part.zones ∉ ps)
    (hl : Part.lines ∉ ps) (hu : Part.startup ∉ ps) : ZoneTableKept s t :=
  ⟨h .zones hz, h.config hl, h.warmup hu⟩

theorem ZoneTableKept.foldl {α : Type} {f : State → α → State} (h : ∀ s x, ZoneTableKept s (f s x)) (xs : List α)
    (s : State) : ZoneTableKept s (xs.foldl f s) := by
  induction xs generalizing s with
  | nil => exact .refl s
  | cons x xs ih => exact (h s x).trans (ih (f s x))

/-! ### Lines measure without touching their configuration -/

theorem State.setLine_zoneTableKept {n : LineId} {r : LineRecord} {s : State} (h : r.config = (s.line n).config) :
    ZoneTableKept s (s.setLine n r) := by
  refine ⟨rfl, fun m => ?_, rfl⟩
  rw [State.setLine_line]
  split_ifs with hm
  · rw [hm, h]
  · rfl

@[simp] theorem LineRecord.takeResult_config (nowMs : Nat) (raw : RawReading) (c : Converted) (r : LineRecord) :
    (r.takeResult nowMs raw c).config = r.config := by
  cases c <;> rfl

@[simp] theorem LineRecord.referenceEdge_config (tick nowMs : Nat) (r : LineRecord) :
    (r.referenceEdge tick nowMs).1.config = r.config := by
  simp only [LineRecord.referenceEdge]
  split
  case h_4 =>
    split
    · rfl
    · split_ifs
      · exact LineRecord.takeResult_config ..
      · rfl
  all_goals rfl

@[simp] theorem LineRecord.countTick_config (r : LineRecord) : r.countTick.config = r.config := by
  unfold LineRecord.countTick
  split
  · split_ifs <;> rfl
  · rfl

@[simp] theorem LineRecord.sample_config (level : Bool) (r : LineRecord) : (r.sample level).config = r.config := by
  unfold LineRecord.sample
  split <;> rfl

@[simp] theorem LineRecord.endWarmup_config (tick : Nat) (r : LineRecord) : (r.endWarmup tick).config = r.config := by
  unfold LineRecord.endWarmup
  split_ifs <;> rfl

theorem State.followEdge_zoneTableKept (n : LineId) (s : State) : ZoneTableKept s (s.followEdge n) :=
  State.setLine_zoneTableKept rfl

theorem State.referenceEdgeAt_zoneTableKept (n : LineId) (s : State) : ZoneTableKept s (s.referenceEdgeAt n) := by
  obtain ⟨frame, only, record, -, -⟩ := s.referenceEdgeAt_spec n
  refine ⟨frame .zones (by decide), fun m => ?_, frame.warmup (by decide)⟩
  by_cases hm : m = n
  · rw [hm, record, LineRecord.referenceEdge_config]
  · rw [only m hm]

theorem State.takeEdge_zoneTableKept (n : LineId) (s : State) : ZoneTableKept s (s.takeEdge n) := by
  unfold State.takeEdge
  split_ifs
  · exact (s.followEdge_zoneTableKept n).trans (State.referenceEdgeAt_zoneTableKept n _)
  · exact s.followEdge_zoneTableKept n

theorem State.takeWaitingEdges_zoneTableKept (s : State) : ZoneTableKept s s.takeWaitingEdges := by
  refine ZoneTableKept.foldl (fun s n => ?_) _ s
  split_ifs
  · exact s.takeEdge_zoneTableKept n
  · exact .refl s

/-- The next capture tick: time moves on and every line is sampled (R132, R133). -/
theorem State.nextTick_zoneTableKept (levels : BitVec 16) (s : State) :
    ZoneTableKept s
      { s with
        tick := s.tick + 1
        lines := Vector.ofFn (fun n : Fin 16 => ((s.line n).countTick).sample (levels.getLsbD n.val)) } :=
  ⟨rfl, fun n => by simp [State.line], rfl⟩

/-! ### What a command can do -/

/-- What becomes of one zone's record in one event, with the facts the event has checked. -/
inductive ZoneChange (z : ZoneId) (s : State) : ZoneRecord → Prop where
  /-- A hold or a latch set or ended (R68 to R70, R76). -/
  | marked (hold : Option Hold) (latch : Option Nat) : ZoneChange z s { s.zone z with hold := hold, latch := latch }
  /-- A ZONE SET on a DISABLED zone (R14). -/
  | set (c : ZoneConfig) (disabled : (s.zone z).status = .disabled) (range : zoneInRange c = true)
      (roles : zoneConflict z c s = none) : ZoneChange z s ((s.zone z).transfer s.now s.warm c)
  /-- A ZONE SET on any other zone (R15). -/
  | waits (c : ZoneConfig) (l : Link) (enabled : (s.zone z).status ≠ .disabled) (range : zoneInRange c = true)
      (roles : zoneConflict z c s = none) : ZoneChange z s { s.zone z with pendingConfig := some ⟨c, l⟩ }
  /-- An evaluation that stage 1 ends (R43). -/
  | stopped (n : LineId) (air : (s.zone z).active.air = some n)
      (ends : (stageOne z s).1.active.air ≠ some n ∨ (stageOne z s).1.status = .disabled) :
      ZoneChange z s (stageOne z s).1
  /-- An evaluation that goes on (R44 to R55). -/
  | judged (c : Converted) (u : State) (latch : Option Nat) (enabled : (stageOne z s).1.status ≠ .disabled) :
      ZoneChange z s { (u.judge c (stageOne z s).1.settle).1 with latch := latch }
  /-- The stale deadline's expiry in STARTING and ACTIVE (R57). -/
  | expired (enabled : (s.zone z).status = .starting ∨ (s.zone z).status = .active) :
      ZoneChange z s
        (stageOne z (s.setZone z (({ s.zone z with deadline := none } : ZoneRecord).turnUnknown .stale))).1
  /-- The stale deadline's expiry in UNKNOWN (R58). -/
  | expiredUnknown (unknown : (s.zone z).status = .unknown) :
      ZoneChange z s (stageOne z (s.setZone z { s.zone z with deadline := none })).1
  /-- A deadline's expiry in DISABLED, where no run has one. -/
  | expiredDisabled (disabled : (s.zone z).status = .disabled) : ZoneChange z s { s.zone z with deadline := none }

/-- What a command does to the zone records, the configurations of the lines and the warm-up. -/
inductive ZoneTableStep (s t : State) : Prop where
  | kept (h : ZoneTableKept s t)
  /-- LINE SET past its checks (R142, R143). -/
  | lineSet (n : LineId) (c : LineConfig) (roles : lineConflict n c.kind s = none) (zones : t.zones = s.zones)
      (config : ∀ m, (t.line m).config = if m = n then c else (s.line m).config)
      (warmup : t.startup.warmupAt = s.startup.warmupAt)
  /-- One zone's record. -/
  | zone (z : ZoneId) (change : ZoneChange z s (t.zone z)) (only : OnlyZone z s t)
      (config : ∀ n, (t.line n).config = (s.line n).config) (warmup : t.startup.warmupAt = s.startup.warmupAt)
  /-- The warm-up's end (R177). -/
  | warmedUp (zones : ∀ z, t.zone z = (s.zone z).endWarmup s.now)
      (config : ∀ n, (t.line n).config = (s.line n).config) (warmup : t.startup.warmupAt = none)
  /-- A restart (R24, R179). -/
  | restarted (now : Word) (zones : ∀ z, t.zone z = (s.zone z).restart now s.warm)
      (config : ∀ n, (t.line n).config = (s.line n).config) (warmup : t.startup.warmupAt = s.startup.warmupAt)
  /-- A full reset (R23, R175). -/
  | reset (c : Settings) (rules : WithinTheRules c) (zones : ∀ z : Fin 8, t.zone z = ZoneRecord.fresh c.zones[z])
      (config : ∀ n : Fin 16, (t.line n).config = c.lines[n]) (warm : t.warm = true)

/-- What the zone table reads may be kept on after the step. -/
theorem ZoneTableStep.thenKept {s u t : State} (h : ZoneTableStep s u) (k : ZoneTableKept u t) :
    ZoneTableStep s t := by
  cases h with
  | kept h => exact .kept (h.trans k)
  | lineSet n c roles zones config warmup =>
    exact .lineSet n c roles (k.zones.trans zones) (fun m => (k.config m).trans (config m)) (k.warmup.trans warmup)
  | zone z change only config warmup =>
    exact .zone z (k.zone z ▸ change) (fun y hy => (k.zone y).trans (only y hy))
      (fun n => (k.config n).trans (config n)) (k.warmup.trans warmup)
  | warmedUp zones config warmup =>
    exact .warmedUp (fun z => (k.zone z).trans (zones z)) (fun n => (k.config n).trans (config n))
      (k.warmup.trans warmup)
  | restarted now zones config warmup =>
    exact .restarted now (fun z => (k.zone z).trans (zones z)) (fun n => (k.config n).trans (config n))
      (k.warmup.trans warmup)
  | reset c rules zones config warm =>
    exact .reset c rules (fun z => (k.zone z).trans (zones z)) (fun n => (k.config n).trans (config n))
      (k.warm.trans warm)

theorem ZoneTableStep.ofZone {z : ZoneId} {ps : List Part} {s t : State} (change : ZoneChange z s (t.zone z))
    (frame : ChangesOnly ps s t) (only : OnlyZone z s t) (hl : Part.lines ∉ ps) (hu : Part.startup ∉ ps) :
    ZoneTableStep s t := .zone z change only (frame.config hl) (frame.warmup hu)

theorem ZoneTableStep.ofInformed {z : ZoneId} {r : ZoneRecord} {cs : List Content} {told : Prop} {s t : State}
    (h : ZoneInformed z r cs told s t) (change : ZoneChange z s r) : ZoneTableStep s t :=
  .ofZone (h.record ▸ change) h.frame h.only (by decide) (by decide)

/-- A request's answer decides what becomes of the zone table: the response touches link records alone. -/
theorem serveRequest_zoneTable {l : Link} {k : RequestKind} {i : Instr} {act : State → Answer} {s t : State}
    (h : serveRequest l k i act s = .next t) (acts : ZoneTableStep s (act s).state) : ZoneTableStep s t := by
  have responds : ∀ (u : State) (code : StatusCode) (b : List Byte), ZoneTableKept u (u.respond l k.code code b) :=
    fun u code b => (u.respond_changesOnly l _ code b).zoneTableKept (by decide) (by decide) (by decide)
  obtain rfl : s.unlessHeld (fun s => s.serve l k i act) = t := Host.Outcome.next.inj h
  unfold State.unlessHeld
  split_ifs
  · exact .kept (.refl s)
  · change ZoneTableStep s (s.serve l k i act)
    rcases s.serve_cases l k i act with ⟨-, e⟩ | ⟨-, e⟩ | ⟨-, e⟩ | ⟨-, e⟩ | ⟨-, e⟩ <;> rw [e]
    · exact acts.thenKept (responds _ _ _)
    · exact .kept (responds _ _ _)
    · exact .kept (responds _ _ _)
    · exact .kept ((s.setLink_changesOnly l _).zoneTableKept (by decide) (by decide) (by decide))
    · exact .kept (.refl s)

/-- A request whose answer leaves zones, lines and start-up control alone. -/
theorem serveRequest_zoneTable_of_frame {l : Link} {k : RequestKind} {i : Instr} {act : State → Answer} {s t : State}
    (h : serveRequest l k i act s = .next t) (ps : List Part) (frame : ChangesOnly ps s (act s).state)
    (hz : Part.zones ∉ ps) (hl : Part.lines ∉ ps) (hu : Part.startup ∉ ps) : ZoneTableStep s t :=
  serveRequest_zoneTable h (.kept (frame.zoneTableKept hz hl hu))

/-- An event does nothing while the reset pin is held. -/
theorem unlessHeld_zoneTable {f : State → State} {s t : State}
    (h : (.next (s.unlessHeld f) : Host.Outcome State Fault Refusal) = .next t) (acts : ZoneTableStep s (f s)) :
    ZoneTableStep s t := by
  obtain rfl : s.unlessHeld f = t := Host.Outcome.next.inj h
  unfold State.unlessHeld
  split_ifs
  · exact .kept (.refl s)
  · exact acts

theorem unlessHeld_zoneTable_of_frame {f : State → State} {s t : State}
    (h : (.next (s.unlessHeld f) : Host.Outcome State Fault Refusal) = .next t) (ps : List Part)
    (frame : ChangesOnly ps s (f s)) (hz : Part.zones ∉ ps) (hl : Part.lines ∉ ps) (hu : Part.startup ∉ ps) :
    ZoneTableStep s t :=
  unlessHeld_zoneTable h (.kept (frame.zoneTableKept hz hl hu))

/-! ### The requests -/

theorem answerLineGet_state (line : Byte) (s : State) : (answerLineGet line s).state = s := by
  unfold answerLineGet
  split <;> rfl

theorem answerZoneGet_state (zone part : Byte) (s : State) : (answerZoneGet zone part s).state = s := by
  unfold answerZoneGet
  split
  · rfl
  · split <;> rfl

theorem answerOutGet_state (out : Byte) (s : State) : (answerOutGet out s).state = s := by
  unfold answerOutGet
  split <;> rfl

theorem answerEventsFetch_changesOnly (l : Link) (n : Byte) (s : State) :
    ChangesOnly [.queue] s (answerEventsFetch l n s).state := by
  unfold answerEventsFetch
  split_ifs
  · exact s.fetch_changesOnly l _
  · exact .refl _ s

theorem answerEventsSeek_changesOnly (l : Link) (target : Byte) (seq : Half) (s : State) :
    ChangesOnly [.queue] s (answerEventsSeek l target seq s).state := by
  unfold answerEventsSeek
  split
  · exact .refl _ s
  · exact s.seek_changesOnly l _ _

theorem answerLinkSet_changesOnly (l : Link) (mask : Byte) (kinds : Half) (least : Byte) (gather : Half) (s : State) :
    ChangesOnly [.queue] s (answerLinkSet l mask kinds least gather s).state := by
  unfold answerLinkSet
  split
  · exact .refl _ s
  · exact s.writeLink_changesOnly l _

theorem answerLinkRank_changesOnly (l : Link) (x y z : Byte) (s : State) :
    ChangesOnly [.rank, .queue, .outs] s (answerLinkRank l x y z s).state := by
  rcases h : rankOf x y z with - | rank
  · simp only [answerLinkRank, h]
    exact .refl _ s
  · simp only [answerLinkRank, h]
    exact s.writeRank_changesOnly l rank

theorem answerOutSet_changesOnly (l : Link) (out : Byte) (b : OutBlock) (s : State) :
    ChangesOnly [.queue, .outs] s (answerOutSet l out b s).state := by
  unfold answerOutSet
  split
  · exact .refl _ s
  · split
    · exact .refl _ s
    · exact s.writeOut_changesOnly l _ _

theorem answerOutClaim_changesOnly (l : Link) (out x : Byte) (minutes : Half) (s : State) :
    ChangesOnly [.queue, .outs] s (answerOutClaim l out x minutes s).state := by
  unfold answerOutClaim
  split
  · exact .refl _ s
  · split
    · exact s.storeClaim_changesOnly l _ _ _
    · exact .refl _ s

theorem answerOutDrop_changesOnly (l : Link) (out : Byte) (s : State) :
    ChangesOnly [.queue, .outs] s (answerOutDrop l out s).state := by
  unfold answerOutDrop
  split
  · exact .refl _ s
  · split
    · exact .refl _ s
    · exact s.endClaim_changesOnly _ l _ _

theorem answerSave_changesOnly (s : State) : ChangesOnly [.store] s (answerSave s).state := by
  unfold answerSave
  split
  · exact s.startWrite_changesOnly
  · exact .refl _ s

theorem answerLineSet_zoneTable (l : Link) (line : Byte) (b : LineBlock) (s : State) :
    ZoneTableStep s (answerLineSet l line b s).state := by
  unfold answerLineSet
  split
  · exact .kept (.refl s)
  next n _ =>
    split
    · exact .kept (.refl s)
    next c _ =>
      split
      · exact .kept (.refl s)
      next roles =>
        refine .lineSet n c roles rfl (fun m => ?_) rfl
        rw [State.writeLine, State.post_line_kept, State.setLine_line]
        split_ifs <;> rfl

/-- The values of a block that is read are within their ranges (R12). -/
theorem zoneConfigOf_inRange {b : ZoneBlock} {c : ZoneConfig} (h : zoneConfigOf b = some c) : zoneInRange c = true := by
  obtain ⟨level, -, h⟩ := Option.bind_eq_some_iff.1 h
  simp only at h
  split_ifs at h with range
  exact Option.some.inj h ▸ range

theorem acceptZoneSet_zoneTable {l : Link} {z : ZoneId} {c : ZoneConfig} {s : State} (range : zoneInRange c = true)
    (roles : zoneConflict z c s = none) : ZoneTableStep s (acceptZoneSet l z c s).state := by
  by_cases disabled : (s.zone z).status = .disabled
  · exact .ofInformed (acceptZoneSet_disabled l c disabled).1 (.set c disabled range roles)
  · rw [acceptZoneSet_waits l c disabled]
    refine .ofZone (z := z) ?_ (s.setZone_changesOnly z _) (fun y hy => s.setZone_zone_other z _ hy) (by decide)
      (by decide)
    rw [State.setZone_zone_self]
    exact .waits c l disabled range roles

theorem answerZoneSet_zoneTable (l : Link) (zone : Byte) (b : ZoneBlock) (s : State) :
    ZoneTableStep s (answerZoneSet l zone b s).state := by
  unfold answerZoneSet
  split
  · exact .kept (.refl s)
  · split
    · exact .kept (.refl s)
    · split
      · exact .kept (.refl s)
      next read =>
        split
        · exact .kept (.refl s)
        next roles => exact acceptZoneSet_zoneTable (zoneConfigOf_inRange read) roles

theorem answerZoneHold_zoneTable (l : Link) (zone mode level : Byte) (minutes : Half) (s : State) :
    ZoneTableStep s (answerZoneHold l zone mode level minutes s).state := by
  unfold answerZoneHold
  split
  · exact .kept (.refl s)
  · split
    · split
      · exact .kept (.refl s)
      · exact .ofInformed (s.setHold_informed l _ _ _) (.marked _ _)
    · exact .kept (.refl s)

theorem State.endHold_zoneTable (z : ZoneId) (cause : HoldEndCause) (l : Link) (s : State) :
    ZoneTableStep s (s.endHold z cause l) := .ofInformed (s.endHold_informed z cause l) (.marked _ _)

theorem answerZoneRelease_zoneTable (l : Link) (zone : Byte) (s : State) :
    ZoneTableStep s (answerZoneRelease l zone s).state := by
  unfold answerZoneRelease
  split
  · exact .kept (.refl s)
  · split
    · exact .kept (.refl s)
    · exact s.endHold_zoneTable _ _ l

theorem answerZoneAck_zoneTable (l : Link) (zone : Byte) (seq : Half) (s : State) :
    ZoneTableStep s (answerZoneAck l zone seq s).state := by
  unfold answerZoneAck
  split
  · exact .kept (.refl s)
  · split
    · exact .kept (.refl s)
    · split
      · exact .kept (.refl s)
      · split
        · exact .ofInformed (s.clearLatch_informed l _ _) (.marked _ _)
        · exact .kept (.refl s)

/-! ### The events -/

theorem State.evaluate_zoneTable {z : ZoneId} {n : LineId} {s : State} (c : Converted) (rest : List Completion)
    (air : (s.zone z).active.air = some n) : ZoneTableStep s ({ s with handed := rest }.evaluate z n c) := by
  by_cases ends : (stageOne z s).1.active.air ≠ some n ∨ (stageOne z s).1.status = .disabled
  · have stops := State.evaluate_stops (s := { s with handed := rest }) c ends
    exact .zone z (stops.record ▸ .stopped n air ends) stops.only (stops.frame.config (by decide))
      (stops.frame.warmup (by decide))
  · rw [not_or, not_not] at ends
    obtain ⟨stays, enabled⟩ := ends
    obtain ⟨frame, only, latch, record⟩ := State.evaluate_goesOn (s := { s with handed := rest }) c stays enabled
    exact .zone z (record ▸ .judged c _ latch enabled) only (frame.config (by decide)) (frame.warmup (by decide))

/-- The zone that the zone table finds for a line names it as its air line (R41). -/
theorem State.air_of_airZone {n : LineId} {z : ZoneId} {s : State} (h : s.airZone n = some z) :
    (s.zone z).active.air = some n := by
  simpa using List.find?_some h

theorem State.takeCompletion_zoneTable (c : Completion) (rest : List Completion) (s : State) :
    ZoneTableStep s ({ s with handed := rest }.takeCompletion c) := by
  unfold State.takeCompletion
  split
  · exact .kept ⟨rfl, fun _ => rfl, rfl⟩
  next found =>
    split_ifs
    · exact .kept ⟨rfl, fun _ => rfl, rfl⟩
    · exact s.evaluate_zoneTable c.result rest (State.air_of_airZone found)

theorem State.expireDeadline_zoneTable (z : ZoneId) (s : State) : ZoneTableStep s (s.expireDeadline z) := by
  rcases h : (s.zone z).status
  · rw [s.expireDeadline_disabled z h]
    refine .ofZone (z := z) ?_ (s.setZone_changesOnly z _) (fun y hy => s.setZone_zone_other z _ hy) (by decide)
      (by decide)
    rw [State.setZone_zone_self]
    exact .expiredDisabled h
  · exact .ofInformed (s.expireDeadline_turnsUnknown z (.inl h)) (.expired (.inl h))
  · exact .ofInformed (s.expireDeadline_turnsUnknown z (.inr h)) (.expired (.inr h))
  · exact .ofInformed (s.expireDeadline_unknown z h) (.expiredUnknown h)

theorem State.startOut_changesOnly (o : OutId) (s : State) : ChangesOnly [.queue, .outs] s (s.startOut o) :=
  ((s.demandOut_changesOnly o).trans (State.setOut_changesOnly _ o _)).mono (by decide)

/-- The outputs of a reset act without touching what the zone table reads. -/
theorem State.startOuts_zoneTableKept (os : List OutId) (s : State) :
    ZoneTableKept s (os.foldl (fun s o => s.startOut o) s) :=
  (ChangesOnly.foldl (fun s o => State.startOut_changesOnly o s) os s).zoneTableKept (by decide) (by decide) (by decide)

/-- A restart, on a state that the zone table reads as it reads `s`. -/
theorem State.restartNow_zoneTable {s u : State} (k : ZoneTableKept s u) (l : Link) :
    ZoneTableStep s (u.restartNow l) := by
  unfold State.restartNow
  refine ZoneTableStep.thenKept ?_ (State.startOuts_zoneTableKept _ _)
  refine .restarted u.now (fun z => ?_) (fun n => ?_) k.warmup
  · rw [← k.zone, ← k.warm]
    simp [State.zone, State.post]
  · rw [← k.config]
    simp [State.line, State.post, LineRecord.startAfresh]

theorem State.restartIfDue_zoneTable {s u : State} (k : ZoneTableKept s u) : ZoneTableStep s u.restartIfDue := by
  unfold State.restartIfDue
  split
  · split_ifs
    · exact State.restartNow_zoneTable k _
    · exact .kept k
  · exact .kept k

/-- The settings that a full reset loads are within their rules (R23, R175). -/
theorem Image.load_withinTheRules (i : Image) : WithinTheRules i.load.1 := by
  unfold Image.load
  split_ifs with accepted
  · simp only [Image.accepted, Bool.and_eq_true] at accepted
    exact (settingsAccepted_iff _).1 accepted.2
  · exact (settingsAccepted_iff _).1 (by decide)

/-- Full reset, with the settings loaded and their source named. -/
theorem execFullReset_eq (powerRose : Bool) (straps : BitVec 2) (s : State) :
    execFullReset powerRose straps s =
      let image := s.store.stopWrite.image
      let loaded := { s with store := s.store.stopWrite }.loaded image.load.1 image.load.2 (resetCause powerRose) straps
      .next ((List.finRange 4).foldl (fun s o => s.startOut o)
        (loaded.post (.start (resetCause powerRose) image.load.2))) := rfl

theorem execFullReset_zoneTable {powerRose : Bool} {straps : BitVec 2} {s t : State}
    (h : execFullReset powerRose straps s = .next t) : ZoneTableStep s t := by
  rw [execFullReset_eq] at h
  obtain rfl := Host.Outcome.next.inj h
  refine ZoneTableStep.thenKept ?_ (State.startOuts_zoneTableKept _ _)
  refine .reset _ s.store.stopWrite.image.load_withinTheRules (fun z => ?_) (fun n => ?_) rfl
  · simp [State.zone, State.post, State.loaded]
  · simp [State.line, State.post, State.loaded, LineRecord.fresh]

theorem State.endWarmup_zoneTable (s : State) :
    ZoneTableStep s
      { s with
        startup := { s.startup with warmupAt := none }
        lines := mapEach (LineRecord.endWarmup s.tick) s.lines
        zones := mapEach (ZoneRecord.endWarmup s.now) s.zones } :=
  .warmedUp (fun z => by simp [State.zone]) (fun n => by simp [State.line]) rfl

/-- Everything a command can do to the zone table and to what its rules read. -/
theorem exec_zoneTable {i : Instr} {s t : State} (h : exec i s = .next t) : ZoneTableStep s t := by
  cases i with
  | status l => exact serveRequest_zoneTable h (.kept ⟨rfl, fun _ => rfl, rfl⟩)
  | lineGet l n => exact serveRequest_zoneTable h (.kept (by rw [answerLineGet_state]; exact .refl s))
  | lineSet l n b => exact serveRequest_zoneTable h (answerLineSet_zoneTable l n b s)
  | zoneGet l z p => exact serveRequest_zoneTable h (.kept (by rw [answerZoneGet_state]; exact .refl s))
  | zoneSet l z b => exact serveRequest_zoneTable h (answerZoneSet_zoneTable l z b s)
  | zoneHold l z m x n => exact serveRequest_zoneTable h (answerZoneHold_zoneTable l z m x n s)
  | zoneRelease l z => exact serveRequest_zoneTable h (answerZoneRelease_zoneTable l z s)
  | zoneAck l z n => exact serveRequest_zoneTable h (answerZoneAck_zoneTable l z n s)
  | outGet l o => exact serveRequest_zoneTable h (.kept (by rw [answerOutGet_state]; exact .refl s))
  | outSet l o b =>
    exact serveRequest_zoneTable_of_frame h _ (answerOutSet_changesOnly l o b s) (by decide) (by decide) (by decide)
  | outClaim l o x n =>
    exact serveRequest_zoneTable_of_frame h _ (answerOutClaim_changesOnly l o x n s) (by decide) (by decide) (by decide)
  | outDrop l o =>
    exact serveRequest_zoneTable_of_frame h _ (answerOutDrop_changesOnly l o s) (by decide) (by decide) (by decide)
  | eventsFetch l n =>
    exact serveRequest_zoneTable_of_frame h _ (answerEventsFetch_changesOnly l n s) (by decide) (by decide) (by decide)
  | eventsSeek l x n =>
    exact serveRequest_zoneTable_of_frame h _ (answerEventsSeek_changesOnly l x n s) (by decide) (by decide) (by decide)
  | linkSet l m k x g =>
    exact serveRequest_zoneTable_of_frame h _ (answerLinkSet_changesOnly l m k x g s) (by decide) (by decide)
      (by decide)
  | linkRank l x y z =>
    exact serveRequest_zoneTable_of_frame h _ (answerLinkRank_changesOnly l x y z s) (by decide) (by decide) (by decide)
  | save l =>
    exact serveRequest_zoneTable_of_frame h _ (answerSave_changesOnly s) (by decide) (by decide) (by decide)
  | restart l => exact serveRequest_zoneTable h (.kept ⟨rfl, fun _ => rfl, rfl⟩)
  | characterReceived l ch =>
    exact unlessHeld_zoneTable_of_frame h _ (s.receive_changesOnly l ch) (by decide) (by decide) (by decide)
  | gapTimerExpiry l =>
    refine unlessHeld_zoneTable h ?_
    split_ifs
    · exact .kept ((s.setLink_changesOnly l _).zoneTableKept (by decide) (by decide) (by decide))
    · exact .kept (.refl s)
  | responseEnd l =>
    refine unlessHeld_zoneTable h ?_
    split_ifs
    · refine State.restartIfDue_zoneTable ⟨rfl, fun _ => rfl, ?_⟩
      simp only [Startup.responseEnds]
      split
      · split_ifs <;> rfl
      · rfl
    · exact .kept (.refl s)
  | referenceEdge n =>
    refine unlessHeld_zoneTable h ?_
    split_ifs
    · exact .kept ((s.followEdge_zoneTableKept n).trans (State.referenceEdgeAt_zoneTableKept n _))
    · exact .kept (.refl s)
  | nonReferenceEdge n =>
    refine unlessHeld_zoneTable h ?_
    split_ifs
    · exact .kept (s.followEdge_zoneTableKept n)
    · exact .kept (.refl s)
  | stallTimerExpiry n =>
    refine unlessHeld_zoneTable h ?_
    have stalls : ZoneTableKept s (s.setLine n (s.line n).stall) := State.setLine_zoneTableKept rfl
    simp only
    split_ifs
    · exact .kept stalls
    · exact .kept (stalls.trans ⟨rfl, fun _ => rfl, rfl⟩)
    · exact .kept (.refl s)
  | evaluationEvent n =>
    refine unlessHeld_zoneTable h ?_
    split
    · exact .kept (.refl s)
    next c rest _ => exact s.takeCompletion_zoneTable c rest
  | staleDeadlineExpiry z =>
    refine unlessHeld_zoneTable h ?_
    split_ifs
    · exact s.expireDeadline_zoneTable z
    · exact .kept (.refl s)
  | holdExpiry z =>
    refine unlessHeld_zoneTable h ?_
    split
    · split_ifs
      · exact s.endHold_zoneTable z _ _
      · exact .kept (.refl s)
    · exact .kept (.refl s)
  | zoneEventAtOutput z o =>
    refine unlessHeld_zoneTable_of_frame h [.queue, .outs] ?_ (by decide) (by decide) (by decide)
    have taken := s.setOut_changesOnly o { s.out o with told := (s.out o).told.erase z }
    simp only
    split_ifs
    · exact (taken.trans (State.demandOut_changesOnly o _)).mono (by decide)
    · exact taken.mono (by decide)
    · exact .refl _ s
  | claimExpiry o l =>
    refine unlessHeld_zoneTable_of_frame h [.queue, .outs] ?_ (by decide) (by decide) (by decide)
    split
    · split_ifs
      · exact s.endClaim_changesOnly o l _ _
      · exact .refl _ s
    · exact .refl _ s
  | minHoldExpiry o =>
    refine unlessHeld_zoneTable_of_frame h [.queue, .outs] ?_ (by decide) (by decide) (by decide)
    simp only
    split_ifs
    · exact ((s.setOut_changesOnly o _).trans (State.actOut_changesOnly o _ _)).mono (by decide)
    · exact .refl _ s
  | blinkPhaseExpiry o =>
    refine unlessHeld_zoneTable_of_frame h [.outs] ?_ (by decide) (by decide) (by decide)
    split
    · split_ifs
      · exact s.setOut_changesOnly o _
      · exact .refl _ s
    · exact .refl _ s
  | gatherTimerExpiry l =>
    refine unlessHeld_zoneTable_of_frame h [.queue] ?_ (by decide) (by decide) (by decide)
    split_ifs
    · exact s.setCursor_changesOnly l _
    · exact .refl _ s
  | warmupExpiry =>
    refine unlessHeld_zoneTable h ?_
    split_ifs
    · exact s.endWarmup_zoneTable
    · exact .kept (.refl s)
  | storeWriteCompletion ok =>
    refine unlessHeld_zoneTable h ?_
    split
    · exact State.restartIfDue_zoneTable
        ((s.completeWrite_changesOnly _ ok).zoneTableKept (by decide) (by decide) (by decide))
    · exact .kept (.refl s)
  | fullReset p x => exact execFullReset_zoneTable h
  | restartEffect => exact unlessHeld_zoneTable h (State.restartIfDue_zoneTable (.refl s))
  | resetPinHeldLow =>
    obtain rfl := Host.Outcome.next.inj h
    exact .kept ⟨rfl, fun _ => rfl, rfl⟩
  | captureTick levels =>
    exact unlessHeld_zoneTable h
      (.kept (s.takeWaitingEdges_zoneTableKept.trans (State.nextTick_zoneTableKept levels _)))

end Sys2Proof.Machine
end

/-! ## The invariants of zone records and line roles -/

section
/-!
SUPPORT and PROOFS. Zone records and line roles stay in order (R1, R5 to R10, R13, R44, R142): each kind of change that
`exec_zoneTable` lists keeps both.
-/

namespace Sys2Proof.Machine

/-! ### Zone records in order -/

/-- A zone record in order but for the size of its pending count, which a transfer of new confirmation counts leaves to
the settlement that follows (R44). -/
structure ZoneRecord.Sound (warm : Bool) (r : ZoneRecord) : Prop where
  disabled_iff : r.status = .disabled ↔ zoneEnabled r.active = false
  active_range : zoneInRange r.active = true
  pending_range : ∀ p, r.pendingConfig = some p → zoneInRange p.config = true
  disabled : r.status = .disabled → r.pendingConfig = none ∧ r.deadline = none
  starting : r.status = .starting → r.deadline.isSome = !warm
  active : r.status = .active → r.deadline.isSome = true
  reason : r.unknownReason.isSome = true ↔ r.status = .unknown
  quiet : r.status ≠ .active → r.history = [] ∧ r.pending = none
  history : r.history.length ≤ 4
  fails : r.failCount ≤ 7
  pending : ∀ p, r.pending = some p → p.level ≠ r.level ∧ 1 ≤ p.count

theorem ZoneRecord.forall_configs (r : ZoneRecord) (P : ZoneConfig → Prop) :
    (∀ c ∈ r.configs, P c) ↔ P r.active ∧ ∀ p, r.pendingConfig = some p → P p.config := by
  unfold ZoneRecord.configs
  cases r.pendingConfig <;> simp

/-- A record in order is sound, with its pending count below the confirmation count. -/
theorem ZoneRecord.ok_iff (warm : Bool) (r : ZoneRecord) :
    r.Ok warm ↔
      r.Sound warm ∧ ∀ p, r.pending = some p → p.count < confirmCount r.active r.level p.level := by
  unfold ZoneRecord.Ok
  rw [r.forall_configs]
  constructor
  · rintro ⟨h1, ⟨h2, h3⟩, h4, h5, h6, h7, h8, h9, h10, h11⟩
    exact ⟨⟨h1, h2, h3, h4, h5, h6, h7, h8, h9, h10, fun p hp => ⟨(h11 p hp).1, (h11 p hp).2.1⟩⟩,
      fun p hp => (h11 p hp).2.2⟩
  · rintro ⟨h, count⟩
    exact ⟨h.disabled_iff, ⟨h.active_range, h.pending_range⟩, h.disabled, h.starting, h.active, h.reason, h.quiet,
      h.history, h.fails, fun p hp => ⟨(h.pending p hp).1, (h.pending p hp).2, count p hp⟩⟩

theorem ZoneRecord.Ok.sound {warm : Bool} {r : ZoneRecord} (h : r.Ok warm) : r.Sound warm := ((r.ok_iff warm).1 h).1

theorem ZoneRecord.Sound.ok_of_no_pending {warm : Bool} {r : ZoneRecord} (h : r.Sound warm) (hp : r.pending = none) :
    r.Ok warm := (r.ok_iff warm).2 ⟨h, fun p h' => by simp [hp] at h'⟩

/-- Hold and latch play no part. -/
theorem ZoneRecord.Ok.marked {warm : Bool} {r : ZoneRecord} (h : r.Ok warm) (hold : Option Hold)
    (latch : Option Nat) : ({ r with hold := hold, latch := latch } : ZoneRecord).Ok warm := h

/-! ### Transfer -/

/-- The same lines make the same answer to whether a configuration is enabled (R5, R18). -/
theorem zoneEnabled_of_sameLines {c d : ZoneConfig} (h : sameLines c d = true) : zoneEnabled c = zoneEnabled d := by
  obtain ⟨air, surfaces⟩ := (sameLines_iff c d).1 h
  have empty : c.surfaces = [] ↔ d.surfaces = [] := by simp only [List.eq_nil_iff_forall_not_mem, surfaces]
  rw [Bool.eq_iff_iff, zoneEnabled_iff, zoneEnabled_iff, air]
  simp only [ne_eq, empty]

section
variable (c : ZoneConfig) (r : ZoneRecord)

@[simp] theorem ZoneRecord.takeConfig_active : (r.takeConfig c).active = c := by
  unfold ZoneRecord.takeConfig
  split_ifs <;> rfl

@[simp] theorem ZoneRecord.takeConfig_pendingConfig : (r.takeConfig c).pendingConfig = none := by
  unfold ZoneRecord.takeConfig
  split_ifs <;> rfl

@[simp] theorem ZoneRecord.takeConfig_status : (r.takeConfig c).status = r.status := by
  unfold ZoneRecord.takeConfig
  split_ifs <;> rfl

@[simp] theorem ZoneRecord.takeConfig_level : (r.takeConfig c).level = r.level := by
  unfold ZoneRecord.takeConfig
  split_ifs <;> rfl

@[simp] theorem ZoneRecord.takeConfig_deadline : (r.takeConfig c).deadline = r.deadline := by
  unfold ZoneRecord.takeConfig
  split_ifs <;> rfl

@[simp] theorem ZoneRecord.takeConfig_unknownReason : (r.takeConfig c).unknownReason = r.unknownReason := by
  unfold ZoneRecord.takeConfig
  split_ifs <;> rfl

/-- With the same lines history, pending level and fail count are kept (R18 step 4). -/
theorem ZoneRecord.takeConfig_same (h : sameLines r.active c = true) :
    r.takeConfig c = { r with active := c, pendingConfig := none, epoch := r.epoch + 1 } := by
  simp [ZoneRecord.takeConfig, h]

/-- With other lines they are cleared, and the last evaluation with them (R18 step 4). -/
theorem ZoneRecord.takeConfig_cleared (h : ¬sameLines r.active c = true) :
    r.takeConfig c =
      { r with active := c, pendingConfig := none, epoch := r.epoch + 1, history := [], pending := none,
               failCount := 0, lastEval := none } := by
  simp [ZoneRecord.takeConfig, h]

end

/-- A transfer of a configuration in range keeps a record sound (R18 to R20). -/
theorem ZoneRecord.Sound.transfer {warm : Bool} {r : ZoneRecord} (h : r.Sound warm) (now : Word) {c : ZoneConfig}
    (range : zoneInRange c = true) : (r.transfer now warm c).Sound warm := by
  have quiet : r.status ≠ .active → (r.takeConfig c).history = [] ∧ (r.takeConfig c).pending = none := by
    intro status
    unfold ZoneRecord.takeConfig
    split_ifs
    · exact h.quiet status
    · exact ⟨rfl, rfl⟩
  have history : (r.takeConfig c).history.length ≤ 4 := by
    unfold ZoneRecord.takeConfig
    split_ifs
    · exact h.history
    · exact Nat.zero_le 4
  have fails : (r.takeConfig c).failCount ≤ 7 := by
    unfold ZoneRecord.takeConfig
    split_ifs
    · exact h.fails
    · exact Nat.zero_le 7
  have pending : ∀ p, (r.takeConfig c).pending = some p → p.level ≠ r.level ∧ 1 ≤ p.count := by
    unfold ZoneRecord.takeConfig
    split_ifs
    · exact h.pending
    · nofun
  by_cases disabled : r.status = .disabled
  · obtain ⟨noHistory, noPending⟩ := quiet (by simp [disabled])
    have reason : r.unknownReason = none := by simpa [disabled] using h.reason
    have deadline := (h.disabled disabled).2
    rw [ZoneRecord.transfer_disabled disabled]
    rcases on : zoneEnabled c
    · exact
        { disabled_iff := by simp [disabled, on], active_range := by simpa using range, pending_range := by simp,
          disabled := by simp [deadline], starting := by simp [disabled], active := by simp [disabled],
          reason := by simp [disabled, reason], quiet := by simp [noHistory, noPending], history := history,
          fails := fails, pending := by simp [noPending] }
    · exact
        { disabled_iff := by simp [on], active_range := by simpa using range, pending_range := by simp,
          disabled := by simp, starting := by cases warm <;> simp [startingDeadline], active := by simp,
          reason := by simp [reason], quiet := by simp [noHistory, noPending], history := history, fails := fails,
          pending := by simp [noPending] }
  · have wasOn : zoneEnabled r.active = true := by simpa [disabled] using h.disabled_iff
    rw [ZoneRecord.transfer_of_ne_disabled disabled]
    rcases on : zoneEnabled c
    · have changed : ¬sameLines r.active c = true := fun same => by
        simp [zoneEnabled_of_sameLines same, on] at wasOn
      have noHistory : (r.takeConfig c).history = [] := by rw [r.takeConfig_cleared c changed]
      exact
        { disabled_iff := by simp [on], active_range := by simpa using range, pending_range := by simp,
          disabled := by simp, starting := by simp, active := by simp, reason := by simp,
          quiet := by simp [noHistory], history := history, fails := fails, pending := by simp }
    · exact
        { disabled_iff := by simp [on, disabled], active_range := by simpa using range, pending_range := by simp,
          disabled := by simp [disabled], starting := by simpa using h.starting, active := by simpa using h.active,
          reason := by simpa using h.reason, quiet := by simpa using quiet, history := history, fails := fails,
          pending := by simpa using pending }

/-- A transfer gives up a pending level where the zone has none, where the lines change, and where it is disabled. -/
theorem ZoneRecord.transfer_pending_none {now : Word} {warm : Bool} {c : ZoneConfig} {r : ZoneRecord}
    (h : r.pending = none ∨ ¬sameLines r.active c = true ∨
      r.status ≠ .disabled ∧ (r.transfer now warm c).status = .disabled) :
    (r.transfer now warm c).pending = none := by
  have taken : r.pending = none ∨ ¬sameLines r.active c = true → (r.takeConfig c).pending = none := by
    rintro (none | changed)
    · unfold ZoneRecord.takeConfig
      split_ifs
      · exact none
      · rfl
    · rw [r.takeConfig_cleared c changed]
  rw [← or_assoc] at h
  by_cases disabled : r.status = .disabled
  · have := taken (h.resolve_right (by simp [disabled]))
    rw [ZoneRecord.transfer_disabled disabled]
    split_ifs <;> exact this
  · rw [ZoneRecord.transfer_of_ne_disabled disabled] at h ⊢
    split_ifs at h ⊢
    · exact taken (h.resolve_right (by simp [disabled]))
    · rfl

/-- Stage 1 keeps a record sound. -/
theorem ZoneRecord.Sound.afterStageOne {z : ZoneId} {s : State} (h : (s.zone z).Sound s.warm) :
    (stageOne z s).1.Sound s.warm := by
  unfold stageOne
  split
  · exact h
  next p waits => exact h.transfer s.now (h.pending_range p waits)

/-- Stage 1 leaves no pending level where there was none. -/
theorem stageOne_pending_none {z : ZoneId} {s : State} (h : (s.zone z).pending = none) :
    (stageOne z s).1.pending = none := by
  unfold stageOne
  split
  · exact h
  · exact ZoneRecord.transfer_pending_none (.inl h)

/-- A record that stage 1 takes the air line from, or disables, is in order: its pending level is given up (R18,
R19). -/
theorem ZoneRecord.Ok.stageOne_stopped {z : ZoneId} {n : LineId} {s : State} (h : (s.zone z).Ok s.warm)
    (air : (s.zone z).active.air = some n)
    (ends : (stageOne z s).1.active.air ≠ some n ∨ (stageOne z s).1.status = .disabled) :
    (stageOne z s).1.Ok s.warm := by
  rcases waits : (s.zone z).pendingConfig with - | p
  · simpa [stageOne, waits] using h
  · have after : (stageOne z s).1 = (s.zone z).transfer s.now s.warm p.config := by simp [stageOne, waits]
    refine h.sound.afterStageOne.ok_of_no_pending ?_
    rw [after] at ends ⊢
    refine ZoneRecord.transfer_pending_none ?_
    rcases ends with moved | disabled
    · refine .inr (.inl fun same => moved ?_)
      have active : ((s.zone z).transfer s.now s.warm p.config).active = p.config := by
        unfold ZoneRecord.transfer
        split <;> exact ZoneRecord.takeConfig_active ..
      rw [active, ← ((sameLines_iff _ _).1 same).1, air]
    · by_cases was : (s.zone z).status = .disabled
      · exact .inl (h.sound.quiet (by simp [was])).2
      · exact .inr (.inr ⟨was, disabled⟩)

/-! ### Stages 2 to 8 -/

/-- Settlement brings the pending count below the confirmation count now active (R44). -/
theorem ZoneRecord.Sound.settle {warm : Bool} {r : ZoneRecord} (h : r.Sound warm) : r.settle.Ok warm := by
  rw [ZoneRecord.ok_iff]
  unfold ZoneRecord.settle
  split
  next none => exact ⟨h, by simp [none]⟩
  next p some =>
    obtain ⟨level, count⟩ := h.pending p some
    have active : r.status = .active := by
      by_contra quiet
      simp [(h.quiet quiet).2] at some
    have settled : ∀ q : Option PendingLevel, (∀ p', q = .some p' → p'.level ≠ r.level ∧ 1 ≤ p'.count) →
        ({ r with pending := q } : ZoneRecord).Sound warm := fun q hq =>
      { h with quiet := fun quiet => absurd active quiet, pending := hq }
    simp only
    split_ifs with reached two
    · refine ⟨settled _ ?_, ?_⟩
      · rintro p' ⟨⟩
        exact ⟨level, by simp only; omega⟩
      · rintro p' ⟨⟩
        simp only
        omega
    · exact ⟨settled none nofun, nofun⟩
    · refine ⟨h, fun p' hp' => ?_⟩
      obtain rfl : p = p' := Option.some.inj (some.symm.trans hp')
      omega

/-- A failure keeps a record in order (R47 to R49). -/
theorem ZoneRecord.Ok.fail {warm : Bool} {r : ZoneRecord} (h : r.Ok warm) (enabled : r.status ≠ .disabled)
    (why : UnknownReason) : (r.fail why).1.Ok warm := by
  obtain ⟨sound, count⟩ := (r.ok_iff warm).1 h
  have fails : min 7 (r.failCount + 1) ≤ 7 := min_le_left ..
  unfold ZoneRecord.fail
  simp only
  split_ifs
  · refine ZoneRecord.Sound.ok_of_no_pending ?_ rfl
    exact
      { disabled_iff := by simpa [ZoneRecord.turnUnknown, enabled] using sound.disabled_iff,
        active_range := sound.active_range, pending_range := sound.pending_range,
        disabled := by simp [ZoneRecord.turnUnknown], starting := by simp [ZoneRecord.turnUnknown],
        active := by simp [ZoneRecord.turnUnknown], reason := by simp [ZoneRecord.turnUnknown],
        quiet := by simp [ZoneRecord.turnUnknown], history := by simp [ZoneRecord.turnUnknown], fails := fails,
        pending := by simp [ZoneRecord.turnUnknown] }
  · exact (ZoneRecord.ok_iff ..).2 ⟨{ sound with fails := fails }, count⟩

theorem appendMargin_length (h : List Int) (m : Int) (short : h.length ≤ 4) : (appendMargin h m).length ≤ 4 := by
  unfold appendMargin
  split_ifs
  · simp
    omega
  · simp
    omega

/-- The count of a run of raw levels is at least 1 and names the raw level (R54). -/
theorem runAfter_spec (raw : Level) (p : Option PendingLevel) :
    (runAfter raw p).level = raw ∧ 1 ≤ (runAfter raw p).count := by
  unfold runAfter
  split
  · split_ifs <;> simp
  · simp

/-- A success in ACTIVE confirms or counts the raw level, and its record is in order (R54, R55). -/
theorem ZoneRecord.Sound.confirm {warm : Bool} {r : ZoneRecord} (h : r.Sound warm) (active : r.status = .active)
    (g : Int) : (r.confirm g).1.Ok warm := by
  have leveled : ∀ (x : Level), ({ r with level := x, pending := none } : ZoneRecord).Ok warm := fun x =>
    ZoneRecord.Sound.ok_of_no_pending
      { h with quiet := fun quiet => absurd active quiet, pending := nofun } rfl
  obtain ⟨level, count⟩ := runAfter_spec (rawLevel r.active r.level g) r.pending
  unfold ZoneRecord.confirm
  simp only
  split_ifs with same confirmed
  · exact leveled r.level
  · exact leveled _
  · refine (ZoneRecord.ok_iff ..).2 ⟨{ h with quiet := fun quiet => absurd active quiet, pending := ?_ }, ?_⟩
    · rintro p ⟨⟩
      exact ⟨fun e => same (level.symm.trans e), count⟩
    · rintro p ⟨⟩
      simp only [level]
      omega

/-- A recorded success with its level decided is in order (R50, R53 to R55). -/
theorem ZoneRecord.Sound.succeed {warm : Bool} {r : ZoneRecord} (h : r.Sound warm) (enabled : r.status ≠ .disabled)
    (now : Word) (airT rh : Int) (saturated aged : Bool) (x : MarginResult) :
    ((r.recordSuccess now airT rh saturated aged x).decideLevel x).1.Ok warm := by
  have history := appendMargin_length r.history x.m h.history
  have on : ¬zoneEnabled r.active = false := fun off => enabled (h.disabled_iff.2 off)
  unfold ZoneRecord.decideLevel
  by_cases active : (r.recordSuccess now airT rh saturated aged x).status = .active
  · simp only [if_pos active]
    refine ZoneRecord.Sound.confirm ?_ active x.g
    exact
      { disabled_iff := h.disabled_iff, active_range := h.active_range, pending_range := h.pending_range,
        disabled := fun off => absurd off enabled, starting := fun _ => by simp_all [ZoneRecord.recordSuccess],
        active := fun _ => rfl, reason := by simp_all [ZoneRecord.recordSuccess],
        quiet := fun quiet => absurd active quiet, history := history, fails := Nat.zero_le 7, pending := h.pending }
  · simp only [if_neg active]
    refine ZoneRecord.Sound.ok_of_no_pending ?_ rfl
    exact
      { disabled_iff := by simp [ZoneRecord.recordSuccess, on], active_range := h.active_range,
        pending_range := h.pending_range, disabled := by simp, starting := by simp, active := fun _ => rfl,
        reason := by simp [ZoneRecord.recordSuccess], quiet := by simp, history := history, fails := Nat.zero_le 7,
        pending := by simp }

/-- Stages 3 to 8 keep a settled record in order. -/
theorem ZoneRecord.Ok.judge {warm : Bool} {r : ZoneRecord} (h : r.Ok warm) (enabled : r.status ≠ .disabled)
    (c : Converted) (u : State) : (u.judge c r).1.Ok warm := by
  rcases u.judge_cases c r with ⟨why, fails⟩ | ⟨airT, rh, saturated, aged, x, succeeds⟩
  · rw [fails]
    exact h.fail enabled why
  · rw [succeeds]
    exact h.sound.succeed enabled _ airT rh saturated aged x

/-! ### The other changes -/

/-- A deadline that expires leaves a sound record without a pending level, before the transfer (R57). -/
theorem ZoneRecord.Sound.turnUnknown {warm : Bool} {r : ZoneRecord} (h : r.Sound warm) (enabled : r.status ≠ .disabled)
    (why : UnknownReason) : (({ r with deadline := none } : ZoneRecord).turnUnknown why).Sound warm where
  disabled_iff := by simpa [ZoneRecord.turnUnknown, enabled] using h.disabled_iff
  active_range := h.active_range
  pending_range := h.pending_range
  disabled := by simp [ZoneRecord.turnUnknown]
  starting := by simp [ZoneRecord.turnUnknown]
  active := by simp [ZoneRecord.turnUnknown]
  reason := by simp [ZoneRecord.turnUnknown]
  quiet := by simp [ZoneRecord.turnUnknown]
  history := by simp [ZoneRecord.turnUnknown]
  fails := h.fails
  pending := by simp [ZoneRecord.turnUnknown]

/-- An expiry's record, its deadline given up, is in order after the transfer (R57, R58). -/
theorem ZoneRecord.Sound.expired {z : ZoneId} {s : State} {r : ZoneRecord} (h : r.Sound s.warm)
    (pending : r.pending = none) : (stageOne z (s.setZone z r)).1.Ok s.warm := by
  have record : (s.setZone z r).zone z = r := s.setZone_zone_self z r
  refine ZoneRecord.Sound.ok_of_no_pending ?_ (stageOne_pending_none (by rw [record]; exact pending))
  exact ZoneRecord.Sound.afterStageOne (s := s.setZone z r) (by rw [record]; exact h)

theorem ZoneRecord.fresh_ok {c : ZoneConfig} (range : zoneInRange c = true) : (ZoneRecord.fresh c).Ok true := by
  refine ZoneRecord.Sound.ok_of_no_pending ?_ rfl
  rcases on : zoneEnabled c <;>
    exact
      { disabled_iff := by simp [ZoneRecord.fresh, on], active_range := range, pending_range := nofun,
        disabled := by simp [ZoneRecord.fresh], starting := by simp [ZoneRecord.fresh],
        active := by simp [ZoneRecord.fresh, on], reason := by simp [ZoneRecord.fresh, on],
        quiet := by simp [ZoneRecord.fresh], history := by simp [ZoneRecord.fresh],
        fails := by simp [ZoneRecord.fresh], pending := nofun }

theorem ZoneRecord.Sound.restart {warm : Bool} {r : ZoneRecord} (h : r.Sound warm) (now : Word) :
    (r.restart now warm).Ok warm := by
  refine ZoneRecord.Sound.ok_of_no_pending ?_ rfl
  rcases on : zoneEnabled r.active <;>
    exact
      { disabled_iff := by simp [ZoneRecord.restart, ZoneRecord.fresh, on], active_range := h.active_range,
        pending_range := nofun, disabled := by simp [ZoneRecord.restart, ZoneRecord.fresh, on],
        starting := by cases warm <;> simp [ZoneRecord.restart, ZoneRecord.fresh, on, startingDeadline],
        active := by simp [ZoneRecord.restart, ZoneRecord.fresh, on],
        reason := by simp [ZoneRecord.restart, ZoneRecord.fresh, on],
        quiet := by simp [ZoneRecord.restart, ZoneRecord.fresh],
        history := by simp [ZoneRecord.restart, ZoneRecord.fresh],
        fails := by simp [ZoneRecord.restart, ZoneRecord.fresh], pending := nofun }

theorem ZoneRecord.Ok.endWarmup {warm : Bool} {r : ZoneRecord} (h : r.Ok warm) (now : Word) :
    (r.endWarmup now).Ok false := by
  obtain ⟨sound, count⟩ := (r.ok_iff warm).1 h
  unfold ZoneRecord.endWarmup
  split_ifs with starting
  · refine (ZoneRecord.ok_iff ..).2 ⟨?_, count⟩
    exact { sound with disabled := by simp [starting], starting := fun _ => rfl, active := fun _ => rfl }
  · exact (ZoneRecord.ok_iff ..).2 ⟨{ sound with starting := fun h => absurd h starting }, count⟩

/-- Each change of a zone's record keeps it in order. -/
theorem ZoneChange.ok {z : ZoneId} {s : State} {r : ZoneRecord} (change : ZoneChange z s r)
    (h : (s.zone z).Ok s.warm) : r.Ok s.warm := by
  have sound := h.sound
  cases change with
  | marked hold latch => exact h.marked hold latch
  | set c disabled range _ =>
    exact (sound.transfer s.now range).ok_of_no_pending
      (ZoneRecord.transfer_pending_none (.inl (sound.quiet (by simp [disabled])).2))
  | waits c l enabled range _ =>
    obtain ⟨-, count⟩ := (ZoneRecord.ok_iff ..).1 h
    refine (ZoneRecord.ok_iff ..).2 ⟨{ sound with pending_range := ?_, disabled := ?_ }, count⟩
    · rintro p ⟨⟩
      exact range
    · exact fun disabled => absurd disabled enabled
  | stopped n air ends => exact h.stageOne_stopped air ends
  | judged c u latch enabled =>
    have keeps : (stageOne z s).1.settle.status = (stageOne z s).1.status :=
      (stageOne z s).1.settle_keeps.2.1
    exact (sound.afterStageOne.settle.judge (keeps ▸ enabled) c u).marked _ latch
  | expired enabled =>
    exact (sound.turnUnknown (by rcases enabled with h | h <;> simp [h]) .stale).expired rfl
  | expiredUnknown unknown =>
    refine ZoneRecord.Sound.expired ?_ (sound.quiet (by simp [unknown])).2
    exact { sound with disabled := by simp [unknown], starting := by simp [unknown], active := by simp [unknown] }
  | expiredDisabled disabled =>
    obtain ⟨-, deadline⟩ := sound.disabled disabled
    rw [show ({ s.zone z with deadline := none } : ZoneRecord) = s.zone z by rw [← deadline]]
    exact h

/-- Every change to the zone table keeps every zone record in order. -/
theorem ZoneTableStep.zonesOk {s t : State} (change : ZoneTableStep s t) (h : s.ZonesOk) : t.ZonesOk := by
  intro z
  have warmOf : t.startup.warmupAt = s.startup.warmupAt → t.warm = s.warm := congrArg Option.isSome
  cases change with
  | kept k => exact k.zone z ▸ k.warm ▸ h z
  | lineSet n c _ zones _ warmup => exact State.zone_congr zones z ▸ warmOf warmup ▸ h z
  | zone y change only _ warmup =>
    rw [warmOf warmup]
    by_cases same : z = y
    · subst same
      exact change.ok (h z)
    · rw [only z same]
      exact h z
  | warmedUp zones _ warmup =>
    rw [zones z, show t.warm = false from congrArg Option.isSome warmup]
    exact (h z).endWarmup s.now
  | restarted now zones _ warmup =>
    rw [zones z, warmOf warmup]
    exact (h z).sound.restart now
  | reset c rules zones _ warm =>
    rw [zones z, warm]
    obtain ⟨-, ranges, -⟩ := rules
    exact ZoneRecord.fresh_ok ((zoneInRange_iff _).2 (ranges z))

/-- A step takes nothing but its command from the queue before running it. -/
theorem step_zoneTable {s t : State} (h : step s = .next t) :
    t = s ∨ ∃ rest, ZoneTableStep { s with pending := rest } t := by
  unfold step at h
  split at h
  · exact .inl (Host.Outcome.next.inj h).symm
  · exact .inr ⟨_, exec_zoneTable h⟩

/-- Settles O37: each change of the zone table keeps every zone record in order. -/
theorem zoneRecordsStayInOrder : Obligations.ZoneRecordsStayInOrder := by
  unfold Obligations.ZoneRecordsStayInOrder
  intro s t ok h
  obtain rfl | ⟨rest, change⟩ := step_zoneTable h
  · exact ok
  · exact change.zonesOk ok

/-! ### Line roles apart -/

/-- Fewer configurations and the same line kinds keep the roles apart (R13). -/
theorem State.RolesOk.mono {s t : State} (h : s.RolesOk)
    (configs : ∀ z, ∀ c ∈ (t.zone z).configs, c ∈ (s.zone z).configs)
    (kinds : ∀ n, (t.line n).config.kind = (s.line n).config.kind) : t.RolesOk := by
  obtain ⟨apart, roles⟩ := h
  refine ⟨fun z y ne c hc d hd => apart z y ne c (configs z c hc) d (configs y d hd), fun z c hc => ?_⟩
  simp only [kinds]
  exact roles z c (configs z c hc)

/-- A configuration that passes R13's checks against the table may stand beside the others. -/
theorem rolesApart_of_zoneConflict {z : ZoneId} {c : ZoneConfig} {s : State} (h : zoneConflict z c s = none) :
    (∀ y, y ≠ z → ∀ d ∈ (s.zone y).configs, rolesApart c d ∧ rolesApart d c) ∧
      (∀ n, c.air = some n → (s.line n).config.kind = .air) ∧ ∀ n ∈ c.surfaces, (s.line n).config.kind = .surface := by
  obtain ⟨air, surface, airApart, surfaceApart⟩ := (roleConflict_othersOf_eq_none ..).1 h
  refine ⟨fun y ne d hd => ⟨fun n hn => airApart n hn y ne d hd, fun n hn => ⟨fun hc => ?_, fun hc => ?_⟩⟩, air,
    surface⟩
  · exact (airApart n hc y ne d hd).1 hn
  · exact surfaceApart n hc y ne d hd hn

/-- One zone's configurations, each an old one of the zone or one past R13's checks, keep the roles apart. -/
theorem State.RolesOk.zone {s t : State} {z : ZoneId} (h : s.RolesOk) (only : OnlyZone z s t)
    (kinds : ∀ n, (t.line n).config.kind = (s.line n).config.kind)
    (configs : ∀ c ∈ (t.zone z).configs, c ∈ (s.zone z).configs ∨ zoneConflict z c s = none) : t.RolesOk := by
  obtain ⟨apart, roles⟩ := h
  have apartFrom : ∀ c ∈ (t.zone z).configs, ∀ y, y ≠ z → ∀ d ∈ (s.zone y).configs,
      rolesApart c d ∧ rolesApart d c := by
    intro c hc y ne d hd
    rcases configs c hc with old | passed
    · exact ⟨apart z y ne.symm c old d hd, apart y z ne d hd c old⟩
    · exact (rolesApart_of_zoneConflict passed).1 y ne d hd
  refine ⟨fun x y ne c hc d hd => ?_, fun y c hc => ?_⟩
  · by_cases hx : x = z
    · subst hx
      rw [only y ne.symm] at hd
      exact (apartFrom c hc y ne.symm d hd).1
    · rw [only x hx] at hc
      by_cases hy : y = z
      · subst hy
        exact (apartFrom d hd x ne c hc).2
      · rw [only y hy] at hd
        exact apart x y ne c hc d hd
  · simp only [kinds]
    by_cases hy : y = z
    · subst hy
      rcases configs c hc with old | passed
      · exact roles y c old
      · exact (rolesApart_of_zoneConflict passed).2
    · rw [only y hy] at hc
      exact roles y c hc

theorem ZoneRecord.mem_configs (r : ZoneRecord) (d : ZoneConfig) :
    d ∈ r.configs ↔ d = r.active ∨ ∃ p, r.pendingConfig = some p ∧ d = p.config := by
  unfold ZoneRecord.configs
  cases r.pendingConfig <;> simp

/-- After a transfer the zone has the one configuration (R18). -/
@[simp] theorem ZoneRecord.transfer_configs (now : Word) (warm : Bool) (c : ZoneConfig) (r : ZoneRecord) :
    (r.transfer now warm c).configs = [c] := by
  have taken : (r.takeConfig c).configs = [c] := by simp [ZoneRecord.configs]
  unfold ZoneRecord.transfer
  split <;> exact taken

/-- Stage 1 brings in no configuration (R17, R43). -/
theorem stageOne_configs {z : ZoneId} {s : State} {c : ZoneConfig} (h : c ∈ (stageOne z s).1.configs) :
    c ∈ (s.zone z).configs := by
  unfold stageOne at h
  split at h
  · exact h
  next p waits =>
    rw [ZoneRecord.transfer_configs, List.mem_singleton] at h
    exact ((s.zone z).mem_configs c).2 (.inr ⟨p, waits, h⟩)

/-- Stages 2 to 8 leave the configurations. -/
theorem State.judge_settle_configs (c : Converted) (r : ZoneRecord) (u : State) :
    (u.judge c r.settle).1.configs = r.configs := by
  have settled : r.settle.configs = r.configs := by
    unfold ZoneRecord.settle
    split
    · rfl
    · simp only
      split_ifs <;> rfl
  rw [← settled]
  rcases u.judge_cases c r.settle with ⟨why, fails⟩ | ⟨airT, rh, saturated, aged, x, succeeds⟩
  · rw [fails]
    unfold ZoneRecord.fail
    simp only
    split_ifs <;> rfl
  · rw [succeeds]
    unfold ZoneRecord.decideLevel ZoneRecord.confirm
    simp only
    split_ifs <;> rfl

/-- Each change of a zone's record brings in no configuration but one past R13's checks. -/
theorem ZoneChange.configs {z : ZoneId} {s : State} {r : ZoneRecord} (change : ZoneChange z s r) :
    ∀ c ∈ r.configs, c ∈ (s.zone z).configs ∨ zoneConflict z c s = none := by
  intro d hd
  cases change with
  | marked | expiredDisabled => exact .inl hd
  | set c _ _ passed =>
    rw [ZoneRecord.transfer_configs, List.mem_singleton] at hd
    exact .inr (hd ▸ passed)
  | waits c l _ _ passed =>
    rcases (ZoneRecord.mem_configs ..).1 hd with old | ⟨p, ⟨⟩, rfl⟩
    · exact .inl (((s.zone z).mem_configs d).2 (.inl old))
    · exact .inr passed
  | stopped => exact .inl (stageOne_configs hd)
  | judged c u latch =>
    exact .inl (stageOne_configs ((u.judge_settle_configs c (stageOne z s).1) ▸ hd))
  | expired | expiredUnknown =>
    have before := stageOne_configs hd
    rw [State.setZone_zone_self] at before
    exact .inl before

/-- LINE SET past its check leaves no configuration that names the line in another role (R142). -/
theorem lineConflict_eq_none {n : LineId} {kind : LineKind} {s : State} (h : lineConflict n kind s = none)
    (z : ZoneId) :
    ∀ c ∈ (s.zone z).configs, (c.air = some n → kind = .air) ∧ (n ∈ c.surfaces → kind = .surface) := by
  have unbroken : firstZone (zoneTable (fun z => (s.zone z).configs)) (roleBroken n kind) = none := by
    unfold lineConflict at h
    simp only at h
    split_ifs at h with broken
    · exfalso
      obtain ⟨y, found⟩ := Option.isSome_iff_exists.1 broken
      obtain ⟨c, hc, bad⟩ := List.any_eq_true.1 (firstZone_eq_some.1 found).1
      have unnamed := firstZone_eq_none.1 h y c hc
      simp only [roleBroken, Bool.or_eq_true, Bool.and_eq_true, Bool.or_eq_false_iff] at bad unnamed
      rcases bad with ⟨bad, -⟩ | ⟨bad, -⟩
      · simp [bad] at unnamed
      · simp [bad] at unnamed
    · simpa using broken
  intro c hc
  have good := firstZone_eq_none.1 unbroken z c hc
  simpa [roleBroken, namesAir, namesSurface] using good

/-- Every change to the zone table keeps the line roles apart. -/
theorem ZoneTableStep.rolesOk {s t : State} (change : ZoneTableStep s t) (h : s.RolesOk) : t.RolesOk := by
  cases change with
  | kept k =>
    exact h.mono (fun z c hc => by rwa [k.zone z] at hc) (fun n => congrArg LineConfig.kind (k.config n))
  | lineSet n c passed zones config _ =>
    obtain ⟨apart, roles⟩ := h
    refine ⟨fun z y ne c hc d hd => ?_, fun z d hd => ?_⟩
    · rw [State.zone_congr zones] at hc hd
      exact apart z y ne c hc d hd
    · rw [State.zone_congr zones] at hd
      obtain ⟨air, surface⟩ := lineConflict_eq_none passed z d hd
      refine ⟨fun m hm => ?_, fun m hm => ?_⟩ <;> rw [config m] <;> split_ifs with same
      · exact air (same ▸ hm)
      · exact (roles z d hd).1 m hm
      · exact surface (same ▸ hm)
      · exact (roles z d hd).2 m hm
  | zone z change only config _ => exact h.zone only (fun n => congrArg LineConfig.kind (config n)) change.configs
  | warmedUp zones config _ =>
    refine h.mono (fun z c hc => ?_) (fun n => congrArg LineConfig.kind (config n))
    rw [zones z, ZoneRecord.endWarmup] at hc
    split_ifs at hc <;> exact hc
  | restarted now zones config _ =>
    refine h.mono (fun z c hc => ?_) (fun n => congrArg LineConfig.kind (config n))
    rw [zones z] at hc
    obtain rfl := List.mem_singleton.1 hc
    exact ((s.zone z).mem_configs _).2 (.inl rfl)
  | reset c rules zones config _ =>
    obtain ⟨-, -, -, -, -, air, surface, apart⟩ := rules
    have only : ∀ z : Fin 8, ∀ d ∈ (t.zone z).configs, d = c.zones[z] := fun z d hd => by
      rw [zones z] at hd
      exact List.mem_singleton.1 hd
    refine ⟨fun z y ne d hd e he n hn => ?_, fun z d hd => ?_⟩
    · rw [only y e he]
      rw [only z d hd] at hn
      exact apart z y n ne hn
    · simp only [config, only z d hd]
      exact ⟨air z, surface z⟩

/-- Settles O38: each change of the zone table keeps the line roles apart. -/
theorem lineRolesStayApart : Obligations.LineRolesStayApart := by
  unfold Obligations.LineRolesStayApart
  intro s t ok h
  obtain rfl | ⟨rest, change⟩ := step_zoneTable h
  · exact ok
  · exact change.rolesOk ok

end Sys2Proof.Machine
end

/-! ## Transfers, evaluations that stage 1 ends, and stale deadlines -/

section
/-!
PROOFS. The transfer in every status (R18 to R20), the evaluations that do not go on (R41, R43), and the expiry of a
stale deadline (R57, R58).
-/

namespace Sys2Proof.Machine

/-! ### The transfer written out -/

/-- Steps 1, 2 and 4 of R18, from what they make of a record whose lines stay and of one whose lines change. -/
theorem ZoneRecord.takeConfig_eq {c : ZoneConfig} {r base : ZoneRecord}
    (kept : (r.active.air = c.air ∧ ∀ n, n ∈ r.active.surfaces ↔ n ∈ c.surfaces) →
      base = { r with active := c, pendingConfig := none, epoch := r.epoch + 1 })
    (cleared : ¬(r.active.air = c.air ∧ ∀ n, n ∈ r.active.surfaces ↔ n ∈ c.surfaces) →
      base = { r with active := c, pendingConfig := none, epoch := r.epoch + 1, history := [], pending := none,
                      failCount := 0, lastEval := none }) : r.takeConfig c = base := by
  by_cases same : sameLines r.active c = true
  · rw [r.takeConfig_same c same, kept ((sameLines_iff _ _).1 same)]
  · rw [r.takeConfig_cleared c same, cleared (fun h => same ((sameLines_iff _ _).2 h))]

/-! ### Evaluations that do not go on -/

/-- No zone's evaluation event: no zone names the line, or the one found is DISABLED (R41). -/
theorem State.takeCompletion_unused {c : Completion} {s : State}
    (h : ∀ y, (s.zone y).active.air ≠ some c.line ∨ (s.zone y).status = .disabled) : s.takeCompletion c = s := by
  unfold State.takeCompletion
  split
  · rfl
  next z found => rw [if_pos ((h z).resolve_left (not_not.2 (State.air_of_airZone found)))]

/-- A zone's evaluation event (R41). -/
theorem State.takeCompletion_evaluates {z : ZoneId} {c : Completion} {s : State} (h : Evaluates z c.line s) :
    s.takeCompletion c = s.evaluate z c.line c.result := by
  obtain ⟨-, -, enabled⟩ := id h
  unfold State.takeCompletion
  rw [State.airZone_of_evaluates h]
  exact if_neg enabled

/-- Settles O32: by the transfer written out, and by the evaluations that stage 1 ends. -/
theorem evaluationsThatDoNotGoOn : Obligations.EvaluationsThatDoNotGoOn := by
  unfold Obligations.EvaluationsThatDoNotGoOn
  refine ⟨fun now warm c r base kept cleared => ?_, fun n s notHeld => ⟨fun none => ?_, fun c rest next => ?_⟩⟩
  · rw [← ZoneRecord.takeConfig_eq kept cleared, ← zoneEnabled_iff]
    have others : r.status = .starting ∨ r.status = .active ∨ r.status = .unknown → r.status ≠ .disabled := by
      rintro (h | h | h) <;> simp [h]
    refine ⟨fun disabled off => ?_, fun disabled on => ?_, fun status on => ?_, fun status off => ?_⟩
    · rw [ZoneRecord.transfer_disabled disabled, if_neg off]
    · rw [ZoneRecord.transfer_disabled disabled, if_pos on]
      rfl
    · rw [ZoneRecord.transfer_of_ne_disabled (others status), if_pos on]
    · rw [ZoneRecord.transfer_of_ne_disabled (others status), if_neg off]
  · exact execEvaluationEvent_none (takeHanded_eq_none.2 none)
  · have taken : exec (.evaluationEvent n) s = .next ({ s with handed := rest }.takeCompletion c) :=
      execEvaluationEvent_some notHeld (takeHanded_eq_some.2 next)
    obtain ⟨-, -, -, -, rfl, -⟩ := next
    refine ⟨fun unused => ?_, fun z evaluates ends => ⟨_, taken, ?_⟩⟩
    · rw [taken, State.takeCompletion_unused (s := { s with handed := rest }) unused]
    · have stops := State.evaluate_stops (s := { s with handed := rest }) c.result ends
      rw [State.takeCompletion_evaluates (s := { s with handed := rest }) evaluates]
      exact ⟨((s.hand_changesOnly rest).trans stops.frame).mono (by decide), stops.frame .handed (by decide),
        stops.only, stops.record, stops.posts, stops.tells⟩

/-! ### Stale deadlines -/

/-- STALE_DEADLINE_EXPIRY acts once the deadline's second is reached, and only then (R56; notes/assumptions/28.md). -/
theorem execStaleDeadlineExpiry_due {z : ZoneId} {s : State} {due : Word} (notHeld : s.startup.resetHeld = false)
    (armed : (s.zone z).deadline = some due) (past : (s.now - due).toNat < 2 ^ 31) :
    execStaleDeadlineExpiry z s = .next (s.expireDeadline z) := by
  rw [execStaleDeadlineExpiry, State.unlessHeld_of _ _ notHeld, armed, secondDue_some,
    if_pos (by simpa [reached] using past)]

theorem execStaleDeadlineExpiry_early {z : ZoneId} {s : State}
    (h : (s.zone z).deadline = none ∨ ∃ due, (s.zone z).deadline = some due ∧ 2 ^ 31 ≤ (s.now - due).toNat) :
    execStaleDeadlineExpiry z s = .next s := by
  have early : secondDue s.now (s.zone z).deadline = false := by
    rcases h with none | ⟨due, armed, ahead⟩
    · rw [none, secondDue_none]
    · rw [armed, secondDue_some]
      simpa [reached] using ahead
  simp [execStaleDeadlineExpiry, State.unlessHeld, early]

/-- Stage 1 on a record just written, with no configuration pending. -/
theorem stageOne_setZone_none {z : ZoneId} {r : ZoneRecord} {s : State} (h : r.pendingConfig = none) :
    stageOne z (s.setZone z r) = (r, []) := by
  simp [stageOne, h]

/-- Stage 1 on a record just written, with a configuration pending. -/
theorem stageOne_setZone_some {z : ZoneId} {r : ZoneRecord} {s : State} {p : PendingConfig}
    (h : r.pendingConfig = some p) :
    stageOne z (s.setZone z r) =
      (r.transfer s.now s.warm p.config,
        [.config (.zone z (r.transfer s.now s.warm p.config).epoch) p.writer]) := by
  simp [stageOne, h]

/-- The condition that a STARTING or ACTIVE zone leaves (R57, R62). -/
theorem ZoneRecord.condition_of_measuring {r : ZoneRecord} (h : r.status = .starting ∨ r.status = .active) :
    r.condition = if r.status = .starting then .starting else .level r.level := by
  rcases h with h | h <;> simp [ZoneRecord.condition, h]

/-- Settles O36: by what the expiry does in each status, with and without a configuration pending. -/
theorem staleDeadlineExpiryTurnsUnknown : Obligations.StaleDeadlineExpiryTurnsUnknown := by
  unfold Obligations.StaleDeadlineExpiryTurnsUnknown
  intro z s notHeld
  refine ⟨fun due armed past => ⟨fun status => ?_, fun unknown => ?_⟩, execStaleDeadlineExpiry_early⟩
  · have expires := s.expireDeadline_turnsUnknown z status
    simp only [ZoneRecord.condition_of_measuring status, ZoneRecord.suppressed_eq] at expires
    rcases waits : (s.zone z).pendingConfig with - | p
    · rw [stageOne_setZone_none (by exact waits)] at expires
      simp only [← waits]
      exact ⟨_, execStaleDeadlineExpiry_due notHeld armed past, expires.frame, expires.only, expires.record,
        expires.posts, expires.tells⟩
    · rw [stageOne_setZone_some (by exact waits)] at expires
      exact ⟨_, execStaleDeadlineExpiry_due notHeld armed past, expires.frame, expires.only, expires.record,
        expires.posts, expires.tells⟩
  · have expires := s.expireDeadline_unknown z unknown
    rcases waits : (s.zone z).pendingConfig with - | p
    · rw [stageOne_setZone_none (by exact waits)] at expires
      simp only [← waits]
      exact ⟨_, execStaleDeadlineExpiry_due notHeld armed past, expires.frame, expires.only, expires.record,
        expires.posts, expires.tells⟩
    · rw [stageOne_setZone_some (by exact waits)] at expires
      exact ⟨_, execStaleDeadlineExpiry_due notHeld armed past, expires.frame, expires.only, expires.record,
        expires.posts, expires.tells⟩

end Sys2Proof.Machine
end

/-! ## Operands read, requests refused, and ZONE SET accepted -/

section
/-!
SUPPORT. Which operands are read: the numbers, codes and blocks of requests against their ranges (R12, R67, R111, R116,
R121, R142, R168).
-/

namespace Sys2Proof.Machine

/-! ### Numbers and codes -/

theorem indexOf_eq_none (n : Nat) (b : Byte) : indexOf n b = none ↔ outside n b := by
  unfold indexOf outside
  split_ifs with h
  · simp only [false_iff]
    omega
  · simp only [true_iff]
    omega

theorem indexOf_eq_some {n : Nat} {b : Byte} {i : Fin n} : indexOf n b = some i ↔ b.toNat = i.val + 1 := by
  have := i.isLt
  unfold indexOf
  split_ifs with h
  · simp only [Option.some.injEq, Fin.ext_iff]
    omega
  · simp only [false_iff]
    omega

theorem threeOf_read {α : Type} (x y z : α) (b : Byte) : (∃ v, threeOf x y z b = some v) ↔ b.toNat ≤ 2 := by
  unfold threeOf
  split_ifs <;> simp <;> bv_omega

theorem twoOf_read {α : Type} (x y : α) (b : Byte) : (∃ v, twoOf x y b = some v) ↔ b.toNat ≤ 1 := by
  unfold twoOf
  split_ifs <;> simp <;> bv_omega

theorem levelOf_read (b : Byte) : (∃ v, levelOf b = some v) ↔ b.toNat ≤ 3 := by
  unfold levelOf
  split_ifs <;> simp <;> bv_omega

theorem alarmLevelOf_read (b : Byte) : (∃ v, alarmLevelOf b = some v) ↔ 1 ≤ b.toNat ∧ b.toNat ≤ 3 := by
  unfold alarmLevelOf
  split_ifs
  · simp
    bv_omega
  · rw [levelOf_read]
    bv_omega

/-- The level read from a byte is WATCH, WARN or WET (R4). -/
theorem alarmLevelOf_ne_clear {b : Byte} {x : Level} (h : alarmLevelOf b = some x) : x ≠ .clear := by
  rintro rfl
  unfold alarmLevelOf levelOf at h
  split_ifs at h <;> cases h

/-- A level read is written as the byte it was read from (R168). -/
theorem levelByte_of_alarmLevelOf {b : Byte} {x : Level} (h : alarmLevelOf b = some x) : levelByte x = b := by
  unfold alarmLevelOf levelOf at h
  split_ifs at h with h0 h1 h2 h3 <;> cases h <;> symm <;> assumption

theorem linkOf_read (b : Byte) : (∃ v, linkOf b = some v) ↔ ¬outside 3 b := by
  unfold linkOf outside
  split_ifs <;> simp <;> bv_omega

/-! ### Blocks -/

/-- A line block is read exactly when no field is outside its values or range (R142 step 2). -/
theorem lineConfigOf_read (b : LineBlock) : (∃ c, lineConfigOf b = some c) ↔ ¬badLine b := by
  constructor
  · rintro ⟨c, h⟩
    obtain ⟨kind, hk, h⟩ := Option.bind_eq_some_iff.1 h
    obtain ⟨edge, he, h⟩ := Option.bind_eq_some_iff.1 h
    obtain ⟨polarity, hp, h⟩ := Option.bind_eq_some_iff.1 h
    obtain ⟨window, hw, h⟩ := Option.bind_eq_some_iff.1 h
    replace hk := (threeOf_read ..).1 ⟨kind, hk⟩
    replace he := (twoOf_read ..).1 ⟨edge, he⟩
    replace hp := (twoOf_read ..).1 ⟨polarity, hp⟩
    replace hw := (threeOf_read ..).1 ⟨window, hw⟩
    simp only at h
    split_ifs at h with range
    simp only [lineInRange_iff, lineRanges] at range
    unfold badLine
    omega
  · intro good
    unfold badLine at good
    obtain ⟨kind, hk⟩ := (threeOf_read LineKind.off .air .surface b.kind).2 (by omega)
    obtain ⟨edge, he⟩ := (twoOf_read Edge.rising .falling b.edge).2 (by omega)
    obtain ⟨polarity, hp⟩ := (twoOf_read LinePolarity.normal .inverted b.polarity).2 (by omega)
    obtain ⟨window, hw⟩ := (threeOf_read WindowSize.w16 .w64 .w256 b.window).2 (by omega)
    simp only [lineConfigOf, hk, he, hp, hw, Option.bind_eq_bind, Option.bind_some]
    refine ⟨_, if_pos ((lineInRange_iff _).2 ?_)⟩
    simp only [lineRanges]
    omega

/-- An output block is read exactly when no field is outside its values or range (R121 step 2). -/
theorem outConfigOf_read (b : OutBlock) : (∃ c, outConfigOf b = some c) ↔ ¬badOut b := by
  constructor
  · rintro ⟨c, h⟩
    obtain ⟨source, hs, h⟩ := Option.bind_eq_some_iff.1 h
    obtain ⟨trigger, ht, h⟩ := Option.bind_eq_some_iff.1 h
    obtain ⟨polarity, hp, h⟩ := Option.bind_eq_some_iff.1 h
    obtain ⟨drive, hd, h⟩ := Option.bind_eq_some_iff.1 h
    obtain ⟨mode, hm, h⟩ := Option.bind_eq_some_iff.1 h
    replace hs := (threeOf_read ..).1 ⟨source, hs⟩
    replace ht := (alarmLevelOf_read _).1 ⟨trigger, ht⟩
    replace hp := (twoOf_read ..).1 ⟨polarity, hp⟩
    replace hd := (twoOf_read ..).1 ⟨drive, hd⟩
    replace hm := (twoOf_read ..).1 ⟨mode, hm⟩
    simp only at h
    split_ifs at h with range
    simp only [outInRange_iff, outRanges] at range
    unfold badOut
    omega
  · intro good
    unfold badOut at good
    obtain ⟨source, hs⟩ := (threeOf_read OutSource.off .demand .latch b.source).2 (by omega)
    obtain ⟨trigger, ht⟩ := (alarmLevelOf_read b.trigger).2 (by omega)
    obtain ⟨polarity, hp⟩ := (twoOf_read OutPolarity.activeHigh .activeLow b.polarity).2 (by omega)
    obtain ⟨drive, hd⟩ := (twoOf_read OutDrive.pushPull .openDrain b.drive).2 (by omega)
    obtain ⟨mode, hm⟩ := (twoOf_read OutMode.steady .blink b.mode).2 (by omega)
    simp only [outConfigOf, hs, ht, hp, hd, hm, Option.bind_eq_bind, Option.bind_some]
    refine ⟨_, if_pos ((outInRange_iff _).2 ⟨alarmLevelOf_ne_clear ht, ?_⟩)⟩
    dsimp only
    omega

/-! ### The lines of a zone block -/

theorem zoneLinesExist_iff (b : ZoneBlock) :
    zoneLinesExist b = true ↔ b.air.toNat ≤ 16 ∧ ∀ n ∈ b.surfaces, ¬outside 16 n := by
  simp only [zoneLinesExist, Bool.and_eq_true, decide_eq_true_eq, List.all_eq_true, ← indexOf_eq_none, lineOf,
    Option.isSome_iff_ne_none, ne_eq]

/-- A line number read is written as the byte it was read from (R169). -/
theorem lineByte_of_lineOf {b : Byte} {n : LineId} (h : lineOf b = some n) : lineByte n = b := by
  have := indexOf_eq_some.1 h
  have := n.isLt
  unfold lineByte byteOf
  bv_omega

theorem lineOf_lineByte (n : LineId) : lineOf (lineByte n) = some n := by
  have := n.isLt
  refine indexOf_eq_some.2 ?_
  simp [lineByte, byteOf]
  omega

theorem lineByte_injective : Function.Injective lineByte := fun m n h => by
  have := lineOf_lineByte m
  rw [h, lineOf_lineByte] at this
  exact (Option.some.inj this).symm

/-- Surface numbers that exist are the bytes of the lines they name. -/
theorem map_lineByte_filterMap {ns : List Byte} (h : ∀ n ∈ ns, ¬outside 16 n) :
    (ns.filterMap lineOf).map lineByte = ns := by
  induction ns with
  | nil => rfl
  | cons n ns ih =>
    rcases hn : lineOf n with - | m
    · exact absurd ((indexOf_eq_none 16 n).1 hn) (h n (by simp))
    · rw [List.filterMap_cons_some hn, List.map_cons, lineByte_of_lineOf hn, ih fun x hx => h x (by simp [hx])]

/-- An air line's number 0..16 is the byte of the line it names, 0 of none (R169). -/
theorem airByte_lineOf {b : Byte} (h : b.toNat ≤ 16) : airByte (lineOf b) = b := by
  rcases hb : lineOf b with - | n
  · have := (indexOf_eq_none 16 b).1 hb
    unfold outside at this
    show (0 : Byte) = b
    bv_omega
  · exact lineByte_of_lineOf hb

/-- The values of a block whose lines exist pass R12 step 2 exactly when none of them is one it refuses. -/
theorem zoneConfigOf_read {b : ZoneBlock} (lines : zoneLinesExist b = true) :
    (∃ c, zoneConfigOf b = some c) ↔ ¬badZone b := by
  obtain ⟨-, exist⟩ := (zoneLinesExist_iff b).1 lines
  have named := map_lineByte_filterMap exist
  generalize hl : b.surfaces.filterMap lineOf = surfaces at named
  have nodup : b.surfaces.Nodup ↔ surfaces.Nodup := by rw [← named, List.nodup_map_iff lineByte_injective]
  have length : b.surfaces.length = surfaces.length := by rw [← named, List.length_map]
  have air : b.air ∈ b.surfaces ↔ ¬∀ n ∈ surfaces, lineOf b.air ≠ some n := by
    rw [← named]
    simp only [List.mem_map, not_forall, not_not]
    constructor
    · rintro ⟨n, hn, same⟩
      exact ⟨n, hn, same ▸ lineOf_lineByte n⟩
    · rintro ⟨n, hn, same⟩
      exact ⟨n, hn, lineByte_of_lineOf same⟩
  constructor
  · rintro ⟨c, h⟩
    obtain ⟨level, hf, h⟩ := Option.bind_eq_some_iff.1 h
    replace hf := (alarmLevelOf_read _).1 ⟨level, hf⟩
    simp only [hl] at h
    split_ifs at h with range
    simp only [zoneInRange_iff, zoneRanges] at range
    obtain ⟨few, once, other, range⟩ := range
    rintro (many | twice | same | bad)
    · omega
    · exact twice (nodup.2 once)
    · exact air.1 same other
    · omega
  · intro good
    simp only [badZone, not_or] at good
    obtain ⟨few, once, other, good⟩ := good
    obtain ⟨level, hf⟩ := (alarmLevelOf_read b.failLevel).2 (by omega)
    simp only [zoneConfigOf, hf, hl, Option.bind_eq_bind, Option.bind_some]
    refine ⟨_, if_pos ((zoneInRange_iff _).2 ?_)⟩
    refine ⟨by dsimp only; omega, nodup.1 (not_not.1 once), not_not.1 fun h => other (air.2 h), ?_⟩
    simp only [ne_eq, alarmLevelOf_ne_clear hf, not_false_eq_true, true_and]
    omega

/-- A zone block read is the block the configuration is reported as (R169). -/
theorem zoneBlockBytes_of_zoneConfigOf {b : ZoneBlock} {c : ZoneConfig} (lines : zoneLinesExist b = true)
    (h : zoneConfigOf b = some c) : zoneBlockBytes c = encodeZoneBlock b := by
  obtain ⟨air, exist⟩ := (zoneLinesExist_iff b).1 lines
  have named := map_lineByte_filterMap exist
  have length : (b.surfaces.filterMap lineOf).length = b.surfaces.length := by
    conv_rhs => rw [← named, List.length_map]
  obtain ⟨level, hf, h⟩ := Option.bind_eq_some_iff.1 h
  simp only at h
  split_ifs at h
  obtain rfl := Option.some.inj h
  simp only [zoneBlockBytes, encodeZoneBlock, named, length, airByte_lineOf air, levelByte_of_alarmLevelOf hf,
    halfOfInt, halfOf, byteOf, BitVec.ofInt_toInt, BitVec.ofNat_toNat, BitVec.setWidth_eq]

end Sys2Proof.Machine
end


section
/-!
PROOFS. Requests refused for a number, a value or a role, each answered by its owner in the order of its checks, and
ZONE SET accepted (R12 to R15, R21, R67, R69, R76, R91, R93, R95, R111, R112, R116, R121, R125, R142, R145).
-/

namespace Sys2Proof.Machine

/-! ### NO_SUCH -/

theorem zoneOf_eq_none (b : Byte) : zoneOf b = none ↔ outside 8 b := indexOf_eq_none 8 b

theorem lineOf_eq_none (b : Byte) : lineOf b = none ↔ outside 16 b := indexOf_eq_none 16 b

theorem outOf_eq_none (b : Byte) : outOf b = none ↔ outside 4 b := indexOf_eq_none 4 b

/-- A ZONE SET names a zone or a line that does not exist (R12 step 1). -/
theorem namesNothing_zoneSet (l : Link) (zone : Byte) (b : ZoneBlock) :
    namesNothing (.zoneSet l zone b) ↔ zoneOf zone = none ∨ zoneLinesExist b = false := by
  rw [namesNothing, zoneOf_eq_none, ← Bool.not_eq_true, zoneLinesExist_iff, not_and_or, not_le]
  simp only [not_forall, not_not, exists_prop]

theorem answerZoneSet_noSuch {l : Link} {zone : Byte} {b : ZoneBlock} (h : namesNothing (.zoneSet l zone b))
    (s : State) : answerZoneSet l zone b s = refuse s .noSuch := by
  unfold answerZoneSet
  rcases (namesNothing_zoneSet l zone b).1 h with zone | lines
  · rw [zone]
  · split
    · rfl
    · rw [lines]
      rfl

/-- Settles O11: each owner looks at the numbers first. -/
theorem numbersOutOfRangeAnswerNoSuch : Obligations.NumbersOutOfRangeAnswerNoSuch := by
  unfold Obligations.NumbersOutOfRangeAnswerNoSuch
  intro i l k body s request takes names
  cases i with
  | lineGet l' n =>
    cases request
    exact serveRequest_refused takes _ _ _ _ (by rw [answerLineGet, (lineOf_eq_none n).2 names]; rfl)
  | lineSet l' n b =>
    cases request
    exact serveRequest_refused takes _ _ _ _ (by rw [answerLineSet, (lineOf_eq_none n).2 names]; rfl)
  | zoneGet l' z p =>
    cases request
    exact serveRequest_refused takes _ _ _ _ (by rw [answerZoneGet, (zoneOf_eq_none z).2 names]; rfl)
  | zoneSet l' z b =>
    cases request
    exact serveRequest_refused takes _ _ _ _ (answerZoneSet_noSuch names s)
  | zoneHold l' z m x n =>
    cases request
    exact serveRequest_refused takes _ _ _ _ (by rw [answerZoneHold, (zoneOf_eq_none z).2 names]; rfl)
  | zoneRelease l' z =>
    cases request
    exact serveRequest_refused takes _ _ _ _ (by rw [answerZoneRelease, (zoneOf_eq_none z).2 names]; rfl)
  | zoneAck l' z n =>
    cases request
    exact serveRequest_refused takes _ _ _ _ (by rw [answerZoneAck, (zoneOf_eq_none z).2 names]; rfl)
  | outGet l' o =>
    cases request
    exact serveRequest_refused takes _ _ _ _ (by rw [answerOutGet, (outOf_eq_none o).2 names]; rfl)
  | outSet l' o b =>
    cases request
    exact serveRequest_refused takes _ _ _ _ (by rw [answerOutSet, (outOf_eq_none o).2 names]; rfl)
  | outClaim l' o x n =>
    cases request
    exact serveRequest_refused takes _ _ _ _ (by rw [answerOutClaim, (outOf_eq_none o).2 names]; rfl)
  | outDrop l' o =>
    cases request
    exact serveRequest_refused takes _ _ _ _ (by rw [answerOutDrop, (outOf_eq_none o).2 names]; rfl)
  | _ => exact names.elim

/-! ### BAD_ARG -/

/-- What is read of no operand is none. -/
theorem eq_none_of_read_iff {α : Type} {x : Option α} {bad : Prop} (read : (∃ v, x = some v) ↔ ¬bad)
    (h : bad) : x = none := by
  rcases hx : x with - | v
  · rfl
  · exact absurd h (read.1 ⟨v, hx⟩)

theorem answerLineSet_badArg {l : Link} {line : Byte} {b : LineBlock} (exist : ¬outside 16 line) (bad : badLine b)
    (s : State) : answerLineSet l line b s = refuse s .badArg := by
  unfold answerLineSet
  split
  next none => exact absurd ((lineOf_eq_none line).1 none) exist
  next => rw [eq_none_of_read_iff (lineConfigOf_read b) bad]

theorem answerZoneGet_badArg {zone part : Byte} (exist : ¬outside 8 zone) (bad : 3 < part.toNat) (s : State) :
    answerZoneGet zone part s = refuse s .badArg := by
  have unread : ∀ z, zonePart z part s = none := fun z => by
    unfold zonePart
    rw [if_neg (by bv_omega), if_neg (by bv_omega), if_neg (by bv_omega), if_neg (by bv_omega)]
  unfold answerZoneGet
  split
  next none => exact absurd ((zoneOf_eq_none zone).1 none) exist
  next => rw [unread]

theorem answerZoneSet_badArg {l : Link} {zone : Byte} {b : ZoneBlock} (exist : ¬namesNothing (.zoneSet l zone b))
    (bad : badZone b) (s : State) : answerZoneSet l zone b s = refuse s .badArg := by
  rw [namesNothing_zoneSet, not_or, Bool.not_eq_false] at exist
  obtain ⟨zoneExists, lines⟩ := exist
  unfold answerZoneSet
  split
  next none => exact absurd none zoneExists
  next =>
    rw [lines, eq_none_of_read_iff (zoneConfigOf_read lines) bad]
    rfl

theorem minutesOf_eq_none {m : Half} (h : m.toNat < 1 ∨ 1440 < m.toNat) : minutesOf m = none := by
  refine if_neg fun within => ?_
  rw [withinNat_iff] at within
  omega

/-- Mode, level or minutes outside R67's values are not read. -/
theorem badHold_unread {mode level : Byte} {minutes : Half} (bad : badHold mode level minutes) :
    holdModeOf mode level = none ∨ minutesOf minutes = none := by
  rcases bad with other | ⟨rfl, given⟩ | ⟨rfl, level⟩ | minutes
  · rw [not_or] at other
    exact .inl (by rw [holdModeOf, if_neg other.1, if_neg other.2])
  · exact .inl (by rw [holdModeOf, if_pos rfl, if_neg given])
  · refine .inl ?_
    rw [holdModeOf, if_neg (by decide), if_pos rfl, Option.map_eq_none_iff]
    refine eq_none_of_read_iff ?_ level
    rw [alarmLevelOf_read]
    omega
  · exact .inr (minutesOf_eq_none minutes)

theorem answerZoneHold_badArg {l : Link} {zone mode level : Byte} {minutes : Half} {s : State}
    (exist : ¬outside 8 zone)
    (bad : badHold mode level minutes ∨ ∃ z, zoneOf zone = some z ∧ (s.zone z).status = .disabled) :
    answerZoneHold l zone mode level minutes s = refuse s .badArg := by
  unfold answerZoneHold
  split
  next none => exact absurd ((zoneOf_eq_none zone).1 none) exist
  next z found =>
    split
    next readMode readMinutes =>
      rcases bad with bad | ⟨y, same, disabled⟩
      · rcases badHold_unread bad with unread | unread
        · simp [unread] at readMode
        · simp [unread] at readMinutes
      · obtain rfl : z = y := Option.some.inj (found.symm.trans same)
        rw [if_pos disabled]
    next => rfl

theorem answerZoneAck_badArg {l : Link} {zone : Byte} {seq : Half} (exist : ¬outside 8 zone) (bad : seq.toNat = 0)
    (s : State) : answerZoneAck l zone seq s = refuse s .badArg := by
  unfold answerZoneAck
  split
  next none => exact absurd ((zoneOf_eq_none zone).1 none) exist
  next => rw [if_pos (by bv_omega)]

theorem answerOutSet_badArg {l : Link} {out : Byte} {b : OutBlock} (exist : ¬outside 4 out) (bad : badOut b)
    (s : State) : answerOutSet l out b s = refuse s .badArg := by
  unfold answerOutSet
  split
  next none => exact absurd ((outOf_eq_none out).1 none) exist
  next => rw [eq_none_of_read_iff (outConfigOf_read b) bad]

theorem answerOutClaim_badArg {l : Link} {out x : Byte} {minutes : Half} (exist : ¬outside 4 out)
    (bad : 1 < x.toNat ∨ minutes.toNat < 1 ∨ 1440 < minutes.toNat) (s : State) :
    answerOutClaim l out x minutes s = refuse s .badArg := by
  unfold answerOutClaim
  split
  next none => exact absurd ((outOf_eq_none out).1 none) exist
  next =>
    split
    next on k readState readMinutes =>
      rcases bad with bad | bad
      · have := (twoOf_read false true x).1 ⟨on, readState⟩
        omega
      · simp [minutesOf_eq_none bad] at readMinutes
    next => rfl

theorem answerEventsFetch_badArg {n : Byte} (l : Link) (bad : n.toNat < 1 ∨ 4 < n.toNat) (s : State) :
    answerEventsFetch l n s = refuse s .badArg := by
  refine if_neg fun within => ?_
  rw [withinNat_iff] at within
  omega

theorem answerEventsSeek_badArg {target : Byte} {seq : Half} (l : Link)
    (bad : 2 < target.toNat ∨ (target.toNat = 2 ∧ seq.toNat = 0)) (s : State) :
    answerEventsSeek l target seq s = refuse s .badArg := by
  have nowhere : s.queue.seekPlace target seq = none := by
    unfold Queue.seekPlace
    rw [if_neg (by bv_omega), if_neg (by bv_omega), if_neg]
    simp only [Bool.and_eq_true, decide_eq_true_eq, bne_iff_ne]
    bv_omega
  rw [answerEventsSeek, nowhere]

theorem answerLinkSet_badArg {kinds gather : Half} {least : Byte} (l : Link) (mask : Byte)
    (bad : 2048 ≤ kinds.toNat ∨ 3 < least.toNat ∨ 2000 < gather.toNat) (s : State) :
    answerLinkSet l mask kinds least gather s = refuse s .badArg := by
  have unread : linkSettingsOf mask kinds least gather = none := by
    rcases h : linkSettingsOf mask kinds least gather with - | c
    · rfl
    · obtain ⟨level, hl, h⟩ := Option.bind_eq_some_iff.1 h
      replace hl := (levelOf_read least).1 ⟨level, hl⟩
      have range := (Option.ite_none_right_eq_some.1 h).1
      simp only [linkInRange, Bool.and_eq_true, decide_eq_true_eq, withinNat_iff] at range
      omega
  rw [answerLinkSet, unread]

theorem answerLinkRank_badArg {x y z : Byte} (l : Link)
    (bad : outside 3 x ∨ outside 3 y ∨ outside 3 z ∨ x = y ∨ x = z ∨ y = z) (s : State) :
    answerLinkRank l x y z s = refuse s .badArg := by
  have unread : rankOf x y z = none := by
    rcases h : rankOf x y z with - | r
    · rfl
    · obtain ⟨first, h1, h⟩ := Option.bind_eq_some_iff.1 h
      obtain ⟨second, h2, h⟩ := Option.bind_eq_some_iff.1 h
      obtain ⟨third, h3, h⟩ := Option.bind_eq_some_iff.1 h
      have complete := (Option.ite_none_right_eq_some.1 h).1
      simp only [rankComplete, Bool.and_eq_true, bne_iff_ne] at complete
      obtain ⟨⟨ne12, ne13⟩, ne23⟩ := complete
      rcases bad with bad | bad | bad | rfl | rfl | rfl
      · exact absurd bad ((linkOf_read x).1 ⟨_, h1⟩)
      · exact absurd bad ((linkOf_read y).1 ⟨_, h2⟩)
      · exact absurd bad ((linkOf_read z).1 ⟨_, h3⟩)
      · exact absurd (Option.some.inj (h1.symm.trans h2)) ne12
      · exact absurd (Option.some.inj (h1.symm.trans h3)) ne13
      · exact absurd (Option.some.inj (h2.symm.trans h3)) ne23
  rw [answerLinkRank, unread]

/-- Settles O12: each owner looks at the values after the numbers. -/
theorem valuesOutOfRangeAnswerBadArg : Obligations.ValuesOutOfRangeAnswerBadArg := by
  unfold Obligations.ValuesOutOfRangeAnswerBadArg
  intro i l k body s request takes exist bad
  cases i with
  | lineSet l' n b =>
    cases request
    exact serveRequest_refused takes _ _ _ _ (answerLineSet_badArg exist bad s)
  | zoneGet l' z p =>
    cases request
    exact serveRequest_refused takes _ _ _ _ (answerZoneGet_badArg exist bad s)
  | zoneSet l' z b =>
    cases request
    exact serveRequest_refused takes _ _ _ _ (answerZoneSet_badArg exist bad s)
  | zoneHold l' z m x n =>
    cases request
    exact serveRequest_refused takes _ _ _ _ (answerZoneHold_badArg exist bad)
  | zoneAck l' z n =>
    cases request
    exact serveRequest_refused takes _ _ _ _ (answerZoneAck_badArg exist bad s)
  | outSet l' o b =>
    cases request
    exact serveRequest_refused takes _ _ _ _ (answerOutSet_badArg exist bad s)
  | outClaim l' o x n =>
    cases request
    exact serveRequest_refused takes _ _ _ _ (answerOutClaim_badArg exist bad s)
  | eventsFetch l' n =>
    cases request
    exact serveRequest_refused takes _ _ _ _ (answerEventsFetch_badArg _ bad s)
  | eventsSeek l' x n =>
    cases request
    exact serveRequest_refused takes _ _ _ _ (answerEventsSeek_badArg _ bad s)
  | linkSet l' m n x g =>
    cases request
    exact serveRequest_refused takes _ _ _ _ (answerLinkSet_badArg _ m bad s)
  | linkRank l' x y z =>
    cases request
    exact serveRequest_refused takes _ _ _ _ (answerLinkRank_badArg _ bad s)
  | _ => exact bad.elim

/-! ### CONFLICT -/

/-- Leaving one zone out of a search is searching a table where it has no configuration. -/
theorem firstZone_othersOf (z : ZoneId) (f : ZoneId → List ZoneConfig) (p : ZoneConfig → Bool) :
    firstZone (othersOf z f) p = firstZone (zoneTable (fun y => if y = z then [] else f y)) p := by
  have same : ∀ y : ZoneId, (y != z && (f y).any p) = (if y = z then [] else f y).any p := fun y => by
    by_cases h : y = z <;> simp [h]
  simp only [firstZone, othersOf, zoneTable, List.find?_filter, List.find?_map, Function.comp_def, Option.map_map,
    Bool.decide_and, Bool.decide_eq_true, same]

/-- The lowest-numbered other zone with a configuration that names the line (R13 check 3). -/
theorem firstZone_othersOf_eq_some {z y : ZoneId} {f : ZoneId → List ZoneConfig} {p : ZoneConfig → Bool} (ne : y ≠ z)
    (found : ∃ d ∈ f y, p d = true) (first : ∀ x, x < y → x ≠ z → ∀ d ∈ f x, p d = false) :
    firstZone (othersOf z f) p = some y := by
  rw [firstZone_othersOf, firstZone_eq_some, if_neg ne]
  refine ⟨List.any_eq_true.2 found, fun x lower => ?_⟩
  split_ifs with same
  · rfl
  · rw [List.any_eq_false]
    exact fun d hd => by simp [first x lower same d hd]

/-- LINE SET meets a zone that names the line in a role its new kind does not have: the lowest-numbered zone that names
it is reported (R142 step 3). -/
theorem lineConflict_eq_some {n : LineId} {kind : LineKind} {s : State} {z : ZoneId}
    (broken : ∃ y, ∃ d ∈ (s.zone y).configs, (d.air = some n ∧ kind ≠ .air) ∨ (n ∈ d.surfaces ∧ kind ≠ .surface))
    (named : ∃ d ∈ (s.zone z).configs, d.air = some n ∨ n ∈ d.surfaces)
    (first : ∀ y, y < z → ∀ d ∈ (s.zone y).configs, d.air ≠ some n ∧ n ∉ d.surfaces) :
    lineConflict n kind s = some z := by
  have breaks : (firstZone (zoneTable (fun z => (s.zone z).configs)) (roleBroken n kind)).isSome = true := by
    obtain ⟨y, d, hd, bad⟩ := broken
    rw [Option.isSome_iff_ne_none, Ne, firstZone_eq_none]
    intro good
    have := good y d hd
    simp only [roleBroken, namesAir, namesSurface, Bool.or_eq_false_iff, Bool.and_eq_false_iff, decide_eq_false_iff_not,
      List.contains_eq_mem, bne_eq_false_iff_eq] at this
    tauto
  unfold lineConflict
  simp only [breaks, if_true]
  obtain ⟨d, hd, names⟩ := named
  refine firstZone_eq_some.2 ⟨List.any_eq_true.2 ⟨d, hd, by simpa [namesAir, namesSurface] using names⟩, ?_⟩
  intro y lower
  rw [List.any_eq_false]
  exact fun e he => by simp [namesAir, namesSurface, first y lower e he]

section
variable {kind : LineId → LineKind} {others : List (ZoneId × List ZoneConfig)} {c : ZoneConfig}

/-- Check 1 fails (R13). -/
theorem roleConflict_air {n : LineId} (air : c.air = some n) (bad : kind n ≠ .air) :
    roleConflict kind others c = some (n, none) := by
  simp [roleConflict, air, bad]

/-- Check 1 passes and check 2 fails first at `n` (R13). -/
theorem roleConflict_surface {n : LineId} {before after : List LineId} (air : ∀ n, c.air = some n → kind n = .air)
    (list : c.surfaces = before ++ n :: after) (bad : kind n ≠ .surface) (good : ∀ m ∈ before, kind m = .surface) :
    roleConflict kind others c = some (n, none) := by
  have check1 : c.air.toList.find? (fun n => kind n != .air) = none := by simpa using air
  have check2 : c.surfaces.find? (fun n => kind n != .surface) = some n := by
    rw [list, List.find?_append, List.find?_eq_none.2 (by simpa using good)]
    simp [bad]
  simp [roleConflict, check1, check2]

/-- Checks 1 and 2 pass and the air line is another zone's (R13 check 3). -/
theorem roleConflict_held {n : LineId} {y : ZoneId} (air : c.air = some n) (airKind : kind n = .air)
    (surfaces : ∀ n ∈ c.surfaces, kind n = .surface) (held : firstZone others (namesAir n) = some y) :
    roleConflict kind others c = some (n, some y) := by
  have check2 : c.surfaces.find? (fun n => kind n != .surface) = none := by simpa using surfaces
  simp [roleConflict, air, airKind, check2, held]

end

/-- Where the rules of R13 hold in the table, checks 4 and 5 cannot fail: a line has one kind. -/
theorem zoneConflict_eq_none {z : ZoneId} {c : ZoneConfig} {s : State} (ok : s.RolesOk)
    (air : ∀ n, c.air = some n → (s.line n).config.kind = .air)
    (surfaces : ∀ n ∈ c.surfaces, (s.line n).config.kind = .surface)
    (free : ∀ n y, c.air = some n → y ≠ z → ∀ d ∈ (s.zone y).configs, d.air ≠ some n) :
    zoneConflict z c s = none := by
  obtain ⟨-, roles⟩ := ok
  refine (roleConflict_othersOf_eq_none ..).2 ⟨air, surfaces, fun n hn y ne d hd => ⟨free n y hn ne d hd, ?_⟩, ?_⟩
  · intro named
    have := (roles y d hd).2 n named
    rw [air n hn] at this
    cases this
  · intro n hn y ne d hd named
    have := (roles y d hd).1 n named
    rw [surfaces n hn] at this
    cases this

/-- ZONE SET past numbers and values: the role checks decide (R12, R13). -/
theorem answerZoneSet_read {num : Byte} {z : ZoneId} {b : ZoneBlock} {c : ZoneConfig} {l : Link}
    (zone : zoneOf num = some z) (exist : ¬namesNothing (.zoneSet l num b)) (read : zoneConfigOf b = some c)
    (s : State) :
    answerZoneSet l num b s =
      match zoneConflict z c s with
      | some (n, y) => { state := s, status := .conflict, body := conflictBody n y }
      | none => acceptZoneSet l z c s := by
  rw [namesNothing_zoneSet, not_or, Bool.not_eq_false] at exist
  rw [answerZoneSet, zone]
  simp only [exist.2, read]
  rfl

/-- Settles O13: by the checks of LINE SET and ZONE SET in their order. -/
theorem roleConflictsAreRefused : Obligations.RoleConflictsAreRefused := by
  unfold Obligations.RoleConflictsAreRefused
  refine ⟨ZoneRecord.mem_configs, fun l s => ⟨?_, ?_⟩⟩
  · intro num b n c z takes line read broken named first
    refine serveRequest_refused takes _ _ _ _ ?_
    rw [answerLineSet, line]
    simp only [read, lineConflict_eq_some broken named first]
  · intro num b z c takes zone exist read
    have conflicts : ∀ n y, zoneConflict z c s = some (n, y) →
        ∃ t, exec (.zoneSet l num b) s = .next t ∧ ChangesOnly [.links] s t ∧
          Replies l 0x21 .conflict (conflictBody n y) s t := fun n y conflict =>
      serveRequest_refused takes _ _ _ _ (by rw [answerZoneSet_read zone exist read, conflict])
    refine ⟨fun n air bad => conflicts n none (roleConflict_air air bad), fun airGood =>
      ⟨?_, fun surfacesGood => ⟨?_, ?_⟩⟩⟩
    · intro before n after list bad good
      exact conflicts n none (roleConflict_surface airGood list bad good)
    · intro n y air ne found first
      refine conflicts n (some y) (roleConflict_held air (airGood n air) surfacesGood ?_)
      exact firstZone_othersOf_eq_some ne (by simpa [namesAir] using found)
        (fun x lower ne d hd => by simpa [namesAir] using first x lower ne d hd)
    · exact fun ok free => zoneConflict_eq_none ok airGood surfacesGood free

/-! ### ZONE SET accepted -/

/-- A request taken: what its owner leaves stands, with the response on its link. -/
theorem serveRequest_acted {l : Link} {i : Instr} {s : State} (h : Takes l i s) (k : RequestKind) {act : State → Answer}
    {a : Answer} (answered : act s = a) (links : a.state.links = s.links) :
    ∃ t, serveRequest l k i act s = .next t ∧ ChangesOnly [.links] a.state t ∧
      Replies l k.code a.status a.body s t :=
  ⟨_, by rw [serveRequest_taken h k act, answered], a.state.respond_changesOnly l _ _ _,
    State.respond_replies l _ _ _ links⟩

/-- A response leaves what an event at a zone made. -/
theorem ZoneInformed.answered {z : ZoneId} {r : ZoneRecord} {cs : List Content} {told : Prop} {s u t : State}
    (h : ZoneInformed z r cs told s u) (k : ChangesOnly [.links] u t) :
    ChangesOnly [.zones, .queue, .outs, .links] s t ∧ OnlyZone z s t ∧ t.zone z = r ∧ Posts cs s t ∧
      Tells z told s t := by
  have zones : t.zones = u.zones := k .zones (by decide)
  have outs : t.outs = u.outs := k .outs (by decide)
  refine ⟨(h.frame.trans k).mono (by decide), fun y hy => (State.zone_congr zones y).trans (h.only y hy),
    (State.zone_congr zones z).trans h.record, (k .queue (by decide) : _ = u.queue).trans h.posts, fun o => ?_⟩
  rw [State.out_congr outs o]
  exact h.tells o

/-- Settles O28: the block read, then the transfer on a DISABLED zone and the wait on any other. -/
theorem zoneSetTakesEffectOrWaits : Obligations.ZoneSetTakesEffectOrWaits := by
  unfold Obligations.ZoneSetTakesEffectOrWaits
  refine ⟨fun b good air surfaces => (zoneConfigOf_read ((zoneLinesExist_iff b).2 ⟨air, surfaces⟩)).2 good, ?_⟩
  intro l num b s z c takes zone exist read passed
  have lines : zoneLinesExist b = true := by
    rw [namesNothing_zoneSet, not_or, Bool.not_eq_false] at exist
    exact exist.2
  have answers : answerZoneSet l num b s = acceptZoneSet l z c s := by
    rw [answerZoneSet_read zone exist read, passed]
  refine ⟨zoneBlockBytes_of_zoneConfigOf lines read, fun disabled base kept cleared => ?_, fun enabled => ?_⟩
  · obtain ⟨informed, status, body⟩ := acceptZoneSet_disabled l c disabled
    obtain ⟨t, served, responds, replies⟩ :=
      serveRequest_acted takes .zoneSet answers (informed.frame .links (by decide))
    obtain ⟨frame, only, record, posts, tells⟩ := informed.answered responds
    rw [status, body] at replies
    refine ⟨t, served, frame, only, ?_, posts, by rwa [record], replies⟩
    rw [record, ZoneRecord.transfer_disabled disabled, ZoneRecord.takeConfig_eq kept cleared]
    simp only [zoneEnabled_iff]
    rfl
  · rw [acceptZoneSet_waits l c enabled] at answers
    obtain ⟨t, served, responds, replies⟩ := serveRequest_acted takes .zoneSet answers rfl
    have zones := responds .zones (by decide)
    refine ⟨t, served, ((s.setZone_changesOnly z _).trans responds).mono (by decide), fun y hy => ?_, ?_, replies⟩
    · rw [State.zone_congr zones, State.setZone_zone_other _ _ _ hy]
    · rw [State.zone_congr zones, State.setZone_zone_self]

end Sys2Proof.Machine
end

/-! ## The ranges of an evaluation's results -/

section
/-!
SUPPORT and PROOFS. Rounding, interpolation between knots, and the ranges of the results of one evaluation (R10, R27,
R28, R30 to R32, R35, R37).
-/

namespace Sys2Proof.Machine

/-! ### Rounding -/

/-- The rounded quotient lies at most one half from the quotient. -/
theorem rounded_bounds (a : Int) {b : Int} (hb : 0 < b) :
    2 * a - b ≤ 2 * b * rounded a b ∧ 2 * b * rounded a b ≤ 2 * a + b := by
  have divides : ∀ x : Int, 2 * x - b ≤ 2 * b * ((2 * x + b) / (2 * b)) ∧ 2 * b * ((2 * x + b) / (2 * b)) ≤ 2 * x + b :=
    fun x => by
      have := Int.emod_add_mul_ediv (2 * x + b) (2 * b)
      have := Int.emod_nonneg (2 * x + b) (show 2 * b ≠ 0 by omega)
      have := Int.emod_lt_of_pos (2 * x + b) (show 0 < 2 * b by omega)
      omega
  unfold rounded
  split_ifs
  · exact divides a
  · obtain ⟨below, above⟩ := divides (-a)
    rw [mul_neg]
    omega

theorem rounded_nonneg {a b : Int} (ha : 0 ≤ a) (hb : 0 < b) : 0 ≤ rounded a b := by
  rw [rounded, if_pos ha]
  exact Int.ediv_nonneg (by omega) (by omega)

theorem rounded_mono {a a' b : Int} (h : a ≤ a') (hb : 0 < b) : rounded a b ≤ rounded a' b := by
  have twice : 0 < 2 * b := by omega
  unfold rounded
  split_ifs
  · exact Int.ediv_le_ediv twice (by omega)
  · omega
  · have := Int.ediv_nonneg (a := 2 * a' + b) (b := 2 * b) (by omega) (by omega)
    have := Int.ediv_nonneg (a := 2 * -a + b) (b := 2 * b) (by omega) (by omega)
    omega
  · have := Int.ediv_le_ediv (a := 2 * -a' + b) (b := 2 * -a + b) twice (by omega)
    omega

/-- A whole multiple is its own quotient. -/
theorem rounded_mul (a : Int) {b : Int} (hb : 0 < b) : rounded (a * b) b = a := by
  obtain ⟨below, above⟩ := rounded_bounds (a * b) hb
  have : a * b = b * a := mul_comm a b
  have lower : 2 * b * (rounded (a * b) b - a) ≤ b := by rw [mul_sub]; nlinarith
  have upper : -b ≤ 2 * b * (rounded (a * b) b - a) := by rw [mul_sub]; nlinarith
  have : rounded (a * b) b - a = 0 := by
    by_contra ne
    rcases lt_or_gt_of_ne ne with h | h <;> nlinarith
  omega

theorem rounded_nonpos {a b : Int} (ha : a ≤ 0) (hb : 0 < b) : rounded a b ≤ 0 := by
  have := rounded_mono ha hb
  rwa [show rounded 0 b = 0 by simpa using rounded_mul 0 hb] at this

/-- A part of a whole, rounded, lies within the whole. -/
theorem rounded_part_le {d x b : Int} (hd : 0 ≤ d) (hx : x ≤ b) (hb : 0 < b) : rounded (d * x) b ≤ d := by
  calc rounded (d * x) b ≤ rounded (d * b) b := rounded_mono (by nlinarith) hb
    _ = d := rounded_mul d hb

/-! ### The knots -/

/-- Neighbouring knots rise by 261 to 4180 Pa (R25). -/
theorem knot_steps : ∀ k < 12, knot k + 261 ≤ knot (k + 1) := by decide

theorem knot_mono {j k : Nat} (h : j ≤ k) (hk : k ≤ 12) : knot j ≤ knot k := by
  induction k, h using Nat.le_induction with
  | base => exact le_rfl
  | succ k _ ih =>
    have := knot_steps k (by omega)
    have := ih (by omega)
    omega

/-- In a strictly rising list the places whose values lie at or below `e` are the first ones. -/
theorem getD_le_iff_lt_countP {vs : List Int} (rising : vs.Pairwise (· < ·)) (e : Int) :
    ∀ k < vs.length, vs.getD k 0 ≤ e ↔ k < vs.countP (fun v => v ≤ e) := by
  induction vs with
  | nil => simp
  | cons v vs ih =>
    obtain ⟨first, rest⟩ := List.pairwise_cons.1 rising
    intro k hk
    by_cases h : v ≤ e
    · rw [List.countP_cons_of_pos (by simpa using h)]
      cases k with
      | zero => simpa using h
      | succ k => simpa using ih rest k (by simpa using hk)
    · have none : vs.countP (fun v => v ≤ e) = 0 := by
        rw [List.countP_eq_zero]
        intro u hu
        have := first u hu
        simp
        omega
      rw [List.countP_cons_of_neg (by simpa using h), none]
      cases k with
      | zero => simpa using h
      | succ k =>
        have hk' : k < vs.length := by simpa using hk
        have := first vs[k] (List.getElem_mem hk')
        simp [hk']
        omega

/-- The segment of e: the largest knot at or below it (R30 step 1). -/
theorem segment_spec {e : Int} (h : 611 ≤ e) :
    segment e ≤ 12 ∧ knot (segment e) ≤ e ∧ (segment e < 12 → e < knot (segment e + 1)) := by
  have size : knots.length = 13 := rfl
  have places := getD_le_iff_lt_countP (vs := knots) (by decide) e
  have least : 0 < knots.countP (fun v => v ≤ e) := (places 0 (by decide)).1 h
  have most : knots.countP (fun v => v ≤ e) ≤ 13 := List.countP_le_length
  unfold segment
  refine ⟨by omega, ?_, fun below => ?_⟩
  · exact (places _ (by rw [size]; omega)).2 (by omega)
  · by_contra reached
    have := (places _ (by rw [size]; omega)).1 (not_lt.1 reached)
    omega

/-! ### Saturation pressure -/

/-- The segment of a temperature in 0..6000 (R27). -/
theorem saturation_segment {t : Int} (h0 : 0 ≤ t) (h1 : t ≤ 6000) :
    (t = 6000 ∧ saturation t = knot 12) ∨
      ∃ k : Nat, k < 12 ∧ 500 * (k : Int) ≤ t ∧ t < 500 * k + 500 ∧
        saturation t = knot k + rounded ((knot (k + 1) - knot k) * (t - 500 * k)) 500 := by
  unfold saturation
  simp only
  by_cases h : (t / 500).toNat = 12
  · exact .inl ⟨by omega, if_pos h⟩
  · exact .inr ⟨(t / 500).toNat, by omega, by omega, by omega, if_neg h⟩

/-- Within its segment the saturation pressure reaches the lower knot and not the upper one (R27). -/
theorem saturation_between {t : Int} {k : Nat} (hk : k < 12) (h0 : 500 * (k : Int) ≤ t) (h1 : t < 500 * k + 500) :
    0 ≤ rounded ((knot (k + 1) - knot k) * (t - 500 * k)) 500 ∧
      rounded ((knot (k + 1) - knot k) * (t - 500 * k)) 500 < knot (k + 1) - knot k := by
  have step := knot_steps k hk
  obtain ⟨-, above⟩ := rounded_bounds ((knot (k + 1) - knot k) * (t - 500 * k)) (b := 500) (by decide)
  refine ⟨rounded_nonneg (mul_nonneg (by omega) (by omega)) (by decide), ?_⟩
  generalize rounded ((knot (k + 1) - knot k) * (t - 500 * k)) 500 = r at above ⊢
  have : (knot (k + 1) - knot k) * (t - 500 * k) ≤ (knot (k + 1) - knot k) * 499 :=
    mul_le_mul_of_nonneg_left (by omega) (by omega)
  omega

/-- es lies in 611..19,932 (R27). -/
theorem saturation_range {t : Int} (h0 : 0 ≤ t) (h1 : t ≤ 6000) : 611 ≤ saturation t ∧ saturation t ≤ 19932 := by
  rcases saturation_segment h0 h1 with ⟨-, top⟩ | ⟨k, hk, below, above, value⟩
  · rw [top]
    decide
  · have := saturation_between hk below above
    have : knot 0 ≤ knot k := knot_mono (by omega) (by omega)
    have : knot (k + 1) ≤ knot 12 := knot_mono (by omega) (by omega)
    have : knot 0 = 611 ∧ knot 12 = 19932 := by decide
    omega

/-- es never falls as T rises (R27). -/
theorem saturation_mono {t u : Int} (h0 : 0 ≤ t) (h : t ≤ u) (h1 : u ≤ 6000) : saturation t ≤ saturation u := by
  rcases saturation_segment (h0.trans h) h1 with ⟨-, top⟩ | ⟨k, hk, below, above, value⟩
  · rw [top]
    exact (saturation_range h0 (h.trans h1)).2
  · rcases saturation_segment h0 (h.trans h1) with ⟨end_, -⟩ | ⟨j, hj, below', above', value'⟩
    · omega
    · rw [value, value']
      rcases (show j ≤ k by omega).eq_or_lt with rfl | lower
      · have step := knot_steps j hj
        have := rounded_mono (b := 500)
          (mul_le_mul_of_nonneg_left (show t - 500 * j ≤ u - 500 * j by omega)
            (show 0 ≤ knot (j + 1) - knot j by omega)) (by decide)
        omega
      · have := saturation_between hk below above
        have := saturation_between hj below' above'
        have : knot (j + 1) ≤ knot k := knot_mono lower (by omega)
        omega

/-! ### Dew point -/

/-- The dew point before its limit lies in 0..6000 (R30). -/
theorem dewPointRaw_range (e : Int) : 0 ≤ (dewPointRaw e).1 ∧ (dewPointRaw e).1 ≤ 6000 := by
  unfold dewPointRaw
  split_ifs with floor
  · decide
  · obtain ⟨hk, low, high⟩ := segment_spec (not_lt.1 floor)
    simp only
    generalize segment e = k at *
    split_ifs with top
    · decide
    · have step := knot_steps k (by omega)
      have := high (by omega)
      have := rounded_nonneg (a := 500 * (e - knot k)) (b := knot (k + 1) - knot k) (by omega) (by omega)
      have : rounded (500 * (e - knot k)) (knot (k + 1) - knot k) ≤ 500 :=
        rounded_part_le (by decide) (by omega) (by omega)
      simp only
      omega

/-- Interpolating up to the pressure and back to the temperature gains less than two hundredths of a degree. -/
theorem interpolate_back {d x r : Int} (hd : 261 ≤ d) (hr : r ≤ rounded (d * x) 500) : rounded (500 * r) d ≤ x + 1 := by
  obtain ⟨-, up⟩ := rounded_bounds (d * x) (b := 500) (by decide)
  obtain ⟨-, back⟩ := rounded_bounds (500 * r) (b := d) (by omega)
  generalize rounded (500 * r) d = q at back ⊢
  by_contra gains
  have : d * (x + 2) ≤ d * q := mul_le_mul_of_nonneg_left (by omega) (by omega)
  rw [mul_add] at this
  rw [mul_assoc] at back
  omega

/-- The dew point of a pressure not above saturation lies at most 1 above the temperature (R31). -/
theorem dewPointRaw_le {e t : Int} (h0 : 0 ≤ t) (h1 : t ≤ 6000) (h : e ≤ saturation t) : (dewPointRaw e).1 ≤ t + 1 := by
  rcases saturation_segment h0 h1 with ⟨rfl, -⟩ | ⟨j, hj, below, above, value⟩
  · have := (dewPointRaw_range e).2
    omega
  · unfold dewPointRaw
    split_ifs with floor
    · simp only
      omega
    · obtain ⟨hk, low, high⟩ := segment_spec (not_lt.1 floor)
      have between := saturation_between hj below above
      simp only
      generalize segment e = k at *
      have notAbove : k ≤ j := by
        by_contra beyond
        have : knot (j + 1) ≤ knot k := knot_mono (by omega) hk
        omega
      rw [if_neg (by omega)]
      have step := knot_steps k (by omega)
      have := high (by omega)
      simp only
      rcases notAbove.eq_or_lt with rfl | lower
      · have := interpolate_back (d := knot (k + 1) - knot k) (x := t - 500 * k) (r := e - knot k) (by omega) (by omega)
        omega
      · have : rounded (500 * (e - knot k)) (knot (k + 1) - knot k) ≤ 500 :=
          rounded_part_le (by decide) (by omega) (by omega)
        omega

/-! ### Margins -/

/-- The margin going on from the best so far keeps every range that holds of the best and of each difference (R32). -/
theorem coldestFrom_range {td lo hi : Int} {us : List (LineId × Int)} {best : Int × LineId}
    (first : lo ≤ best.1 ∧ best.1 ≤ hi) (rest : ∀ u ∈ us, lo ≤ u.2 - td ∧ u.2 - td ≤ hi) :
    lo ≤ (coldestFrom td best us).1 ∧ (coldestFrom td best us).1 ≤ hi := by
  induction us generalizing best with
  | nil => exact first
  | cons u us ih =>
    rw [coldestFrom]
    refine ih ?_ (fun v hv => rest v (by simp [hv]))
    split_ifs
    · exact rest u (by simp)
    · exact first

theorem clampInt_range (x : Int) : -9999 ≤ clampInt (-9999) 9999 x ∧ clampInt (-9999) 9999 x ≤ 9999 := by
  unfold clampInt
  omega

theorem clampInt_le {x m : Int} (h : x ≤ m) (low : -9999 ≤ m) : clampInt (-9999) 9999 x ≤ m := by
  unfold clampInt
  omega

/-- A projected margin lies in its range and never above m (R35). -/
theorem project_range {history : List Int} {lead : Nat} {m p : Int} (low : -9999 ≤ m)
    (h : project history lead m = some p) : -9999 ≤ p ∧ p ≤ 9999 ∧ p ≤ m := by
  unfold project at h
  split at h
  next oldest _ _ _ =>
    split_ifs at h with falls
    obtain rfl := Option.some.inj h
    refine ⟨(clampInt_range _).1, (clampInt_range _).2, clampInt_le ?_ low⟩
    have := rounded_nonpos (a := (m - oldest) * lead) (b := 4)
      (mul_nonpos_of_nonpos_of_nonneg (by omega) (Int.natCast_nonneg lead)) (by decide)
    omega
  · cases h

/-- The governing margin lies in its range and never above m (R37). -/
theorem govern_range {m : Int} (p : Option Int) (low : -9999 ≤ m) :
    -9999 ≤ govern m p ∧ govern m p ≤ 9999 ∧ govern m p ≤ m := by
  refine ⟨(clampInt_range _).1, (clampInt_range _).2, clampInt_le ?_ low⟩
  split
  · exact min_le_left ..
  · exact le_rfl

/-- Settles O23: each result's range from the range of what it is formed of. -/
theorem evaluationResultsLieInRange : Obligations.EvaluationResultsLieInRange := by
  unfold Obligations.EvaluationResultsLieInRange
  refine ⟨fun t u h0 h h1 => ⟨(saturation_range h0 (h.trans h1)).1, saturation_mono h0 h h1,
    (saturation_range (h0.trans h) h1).2⟩, ?_⟩
  intro t rh u us history lead t0 t1 rh0 rh1 surfaces x
  have es := (saturation_range t0 t1).1
  have e0 : 0 ≤ x.e := rounded_nonneg (mul_nonneg (by omega) rh0) (by decide)
  have e1 : x.e ≤ saturation t := rounded_part_le (by omega) rh1 (by decide)
  have raw := dewPointRaw_range x.e
  have td : x.td = min (dewPointRaw x.e).1 t := rfl
  have td0 : 0 ≤ x.td := by omega
  have td1 : x.td ≤ t := by omega
  have m : -7000 ≤ x.m ∧ x.m ≤ 6000 := by
    refine coldestFrom_range (td := x.td) ?_ (fun v hv => ?_)
    · have := surfaces u (by simp)
      exact ⟨show -7000 ≤ u.2 - x.td by omega, show u.2 - x.td ≤ 6000 by omega⟩
    · have := surfaces v (by simp [hv])
      omega
  refine ⟨e0, e1, td0, td1, dewPointRaw_le t0 t1 e1, m.1, m.2, fun p hp => project_range (by omega) hp, ?_⟩
  exact govern_range (m := x.m) x.p (by omega)

end Sys2Proof.Machine
end

/-! ## Warm-up, restart and full reset -/

section
/-!
PROOFS. The warm-up's end (R20, R146, R177), a restart's effect (R24, R103, R127, R148, R178, R179) and full reset
(R23, R102, R126, R147, R159, R175, R176), each from what the outputs find when they act last.
-/

namespace Sys2Proof.Machine

/-! ### The warm-up's end -/

theorem execWarmupExpiry_early {s : State}
    (h : s.startup.warmupAt = none ∨ ∃ due, s.startup.warmupAt = some due ∧ s.tick < due) :
    execWarmupExpiry s = .next s := by
  have early : timerDue s.tick s.startup.warmupAt = false := by
    rcases h with none | ⟨due, running, ahead⟩
    · rw [none, timerDue_none]
    · rw [running, timerDue_some]
      simpa using ahead
  simp [execWarmupExpiry, State.unlessHeld, early]

theorem execWarmupExpiry_due {s : State} {due : Nat} (notHeld : s.startup.resetHeld = false)
    (running : s.startup.warmupAt = some due) (past : due ≤ s.tick) :
    execWarmupExpiry s =
      .next
        { s with
          startup := { s.startup with warmupAt := none }
          lines := mapEach (LineRecord.endWarmup s.tick) s.lines
          zones := mapEach (ZoneRecord.endWarmup s.now) s.zones } := by
  rw [execWarmupExpiry, State.unlessHeld_of _ _ notHeld, running, timerDue_some, if_pos (by simpa using past)]

/-- Settles O58: the expiry writes start-up control, lines and zones, each record by its own rule. -/
theorem warmupExpiryStartsMeasurement : Obligations.WarmupExpiryStartsMeasurement := by
  unfold Obligations.WarmupExpiryStartsMeasurement
  refine fun s notHeld => ⟨execWarmupExpiry_early, Option.isSome_iff_ne_none, fun due running past => ?_⟩
  refine ⟨_, execWarmupExpiry_due notHeld running past, fun p hp => ?_, rfl, fun n => ?_, fun z => ?_⟩
  · cases p with
    | startup | lines | zones => exact absurd (by decide) hp
    | _ => rfl
  · have line : ∀ u : State, u.lines = mapEach (LineRecord.endWarmup s.tick) s.lines →
        u.line n = (s.line n).endWarmup s.tick := fun u h => by simp [State.line, h]
    exact line _ rfl
  · have zone : ∀ u : State, u.zones = mapEach (ZoneRecord.endWarmup s.now) s.zones →
        u.zone z = (s.zone z).endWarmup s.now := fun u h => by simp [State.zone, h]
    exact zone _ rfl

/-! ### The outputs after a reset -/

/-- An output after a reset turned ON from OFF_FREE, or was left OFF, as its demand is (R126, R127). -/
theorem OutRecord.started_eq {zones : Vector ZoneRecord 8} {now : Word} {nowMs : Nat} {r : OutRecord} {on : Bool}
    (hold : r.holdStart = none) (steady : r.blink = none) (demand : demandOf zones r.config = on) :
    r.started zones now nowMs =
      { r with
        demand := on
        wanted := on
        overridden := false
        outState := if on then (if r.config.minOnS = 0 then .onFree else .onHeld) else .offFree
        holdStart := if on = true ∧ r.config.minOnS ≠ 0 then some now else none
        blink :=
          if on = true ∧ r.config.mode = .blink then
            some { onPhase := true, expiry := (nowMs + r.config.blinkOn * 100) % 4294967296000 }
          else none
        pin := pinLevel r.config on } := by
  simp only [OutRecord.started, demand, hold, steady]
  cases on <;> simp

/-- The outputs O1 to O4 act one after the other on a part whose outputs a reset has freed (R126, R127). -/
theorem State.startOuts_spec {s t : State} (h : t = (List.finRange 4).foldl (fun s o => s.startOut o) s)
    (free : ∀ o, (s.out o).outState = .offFree ∧ (s.out o).winner = none ∧ (s.out o).holdStart = none) :
    ChangesOnly [.queue, .outs] s t ∧ (∀ o, t.out o = (s.out o).started s.zones s.now s.nowMs) ∧
      Posts ((List.finRange 4).flatMap (fun o => startEntry s.zones o (s.out o).config)) s t := by
  subst h
  obtain ⟨frame, started, -, posts⟩ :=
    State.startOut_foldl (List.finRange 4) (List.nodup_finRange 4) s (fun o _ => free o)
  exact ⟨frame, fun o => started o (List.mem_finRange o), posts⟩

/-! ### Restart -/

theorem execRestartEffect_eq {s : State} (notHeld : s.startup.resetHeld = false) :
    execRestartEffect s = .next s.restartIfDue := by
  rw [execRestartEffect, State.unlessHeld_of _ _ notHeld]

/-- Nothing happens before the response has ended and the store is IDLE (R178). -/
theorem State.restartIfDue_early {s : State}
    (h : ∀ p, s.startup.restart = some p → p.responseEnded = false ∨ s.store.state ≠ .idle) : s.restartIfDue = s := by
  unfold State.restartIfDue
  split
  next p pending =>
    rw [if_neg]
    rcases h p pending with h | h <;> simp [h]
  · rfl

theorem State.restartIfDue_due {s : State} {p : RestartPending} (pending : s.startup.restart = some p)
    (ended : p.responseEnded = true) (idle : s.store.state = .idle) : s.restartIfDue = s.restartNow p.link := by
  unfold State.restartIfDue
  simp [pending, ended, idle]

/-- The part as a restart leaves it when START is posted, before the outputs act (R24, R103, R127, R148, R179). -/
def State.restartCleared (l : Link) (s : State) : State :=
  { s with
    handed := []
    zones := mapEach (ZoneRecord.restart s.now s.warm) s.zones
    lines := mapEach (fun r => r.startAfresh s.tick s.warm r.config) s.lines
    queue := s.queue.emptied
    outs := mapEach OutRecord.cleared s.outs
    startup := { s.startup with restart := none, causes := s.startup.causes.map (addCause (.restart l)) } }

theorem State.restartCleared_changesOnly (l : Link) (s : State) :
    ChangesOnly [.handed, .lines, .zones, .queue, .outs, .startup] s (s.restartCleared l) := by
  intro p hp
  cases p with
  | handed | lines | zones | queue | outs | startup => exact absurd (by decide) hp
  | _ => simp only [Part.Same, State.restartCleared]

section
variable (l : Link) (s : State)

@[simp] theorem State.restartCleared_tick : (s.restartCleared l).tick = s.tick := by
  simp only [State.restartCleared]

@[simp] theorem State.restartCleared_queue : (s.restartCleared l).queue = s.queue.emptied := by
  simp only [State.restartCleared]

@[simp] theorem State.restartCleared_now : (s.restartCleared l).now = s.now := by
  simp only [State.now, State.restartCleared]

@[simp] theorem State.restartCleared_nowMs : (s.restartCleared l).nowMs = s.nowMs := by
  simp only [State.nowMs, State.restartCleared]

@[simp] theorem State.restartCleared_line (n : LineId) :
    (s.restartCleared l).line n = (s.line n).startAfresh s.tick s.warm (s.line n).config := by
  simp [State.line, State.restartCleared]

@[simp] theorem State.restartCleared_zone (z : ZoneId) :
    (s.restartCleared l).zone z = (s.zone z).restart s.now s.warm := by
  simp [State.zone, State.restartCleared]

@[simp] theorem State.restartCleared_out (o : OutId) : (s.restartCleared l).out o = (s.out o).cleared := by
  simp [State.out, State.restartCleared]

end

/-- The bit of a restart's cause (R169, R180). -/
theorem addCause_restart (l : Link) :
    addCause (.restart l) = fun causes => causes ||| BitVec.twoPow 5 (1 + linkCode l) := by
  cases l <;> rfl

theorem State.restartNow_eq (l : Link) (s : State) :
    s.restartNow l =
      (List.finRange 4).foldl (fun s o => s.startOut o)
        ((s.restartCleared l).post (.start (.restart l) s.startup.source)) := rfl

/-- START after a restart: the one entry of the ring, after the last seq posted (R103). -/
theorem Queue.emptied_post_start (q : Queue) (tick : Nat) (c : Cause) (source : ConfigSource) :
    (q.emptied.post tick (.start c source)).ring =
        [{ seq := nextSeq q.newest, time := uptimeOf tick, content := .start c source }] ∧
      (q.emptied.post tick (.start c source)).newest = nextSeq q.newest ∧
      ∀ l, (q.emptied.post tick (.start c source)).cursors.get l =
        { cursor := nextSeq q.newest, backlog := 1, missed := 0, lagging := false,
          settings := (q.cursors.get l).settings, gatherAt := none, attention := true } := by
  have cursors : ∀ l, q.emptied.cursors.get l = CursorRecord.fresh (q.cursors.get l).settings (nextSeq q.newest) :=
    fun l => PerLink.get_map ..
  obtain ⟨ring, newest, posted⟩ := q.emptied.post_start_empty tick c source rfl (fun l => ⟨_, cursors l⟩)
  refine ⟨ring, newest, fun l => (posted l).trans ?_⟩
  rw [cursors]
  rfl

theorem LineRecord.startAfresh_same (tick : Nat) (warm : Bool) (r : LineRecord) :
    r.startAfresh tick warm r.config =
      { r with
        state := if r.config.kind = .off then .off else if warm then .warmup else .acquiring
        window := none
        stallAt := if r.config.kind = .off ∨ warm = true then none else some (tick + r.config.stallMs * 8000)
        lastQuality := .none
        fault := false
        lastRaw := none
        lastGood := none } := by
  by_cases off : r.config.kind = .off <;> cases warm <;>
    simp [LineRecord.startAfresh, startState, stallFrom, ticksAfter, ticksPerMs, off]

/-- A zone after a restart: STARTING with its deadline outside the warm-up, or DISABLED (R24, R20). -/
theorem ZoneRecord.restart_eq (now : Word) (warm : Bool) (r : ZoneRecord) :
    ∃ status deadline,
      r.restart now warm =
        { active := r.active, pendingConfig := none, status := status, level := .clear, pending := none, failCount := 0,
          unknownReason := none, deadline := deadline, history := [], lastEval := none, epoch := r.epoch, hold := none,
          latch := none } ∧
      (r.active.air ≠ none ∧ r.active.surfaces ≠ [] → status = .starting ∧ (warm = true → deadline = none) ∧
        (warm = false → deadline = some (now + BitVec.ofNat 32 r.active.staleS))) ∧
      (¬(r.active.air ≠ none ∧ r.active.surfaces ≠ []) → status = .disabled ∧ deadline = none) := by
  refine ⟨_, _, rfl, ?_⟩
  rw [← zoneEnabled_iff]
  refine ⟨fun on => ?_, fun off => ?_⟩
  · rw [if_pos on]
    exact ⟨if_pos on, fun h => by rw [h]; rfl, fun h => by rw [h]; rfl⟩
  · rw [if_neg off]
    exact ⟨if_neg off, rfl⟩

theorem ZoneRecord.restart_demand (now : Word) (warm : Bool) (r : ZoneRecord) :
    (r.restart now warm).active = r.active ∧ (r.restart now warm).hold = none ∧ (r.restart now warm).latch = none ∧
      ((r.restart now warm).status = .starting ∨ (r.restart now warm).status = .disabled) := by
  refine ⟨rfl, rfl, rfl, ?_⟩
  unfold ZoneRecord.restart ZoneRecord.fresh
  cases zoneEnabled r.active <;> simp

/-- RESTART leaves every part but start-up control. -/
theorem answerRestart_changesOnly (l : Link) (s : State) : ChangesOnly [.startup] s (answerRestart l s).state := by
  intro p other
  cases p with
  | startup => exact absurd (by decide) other
  | _ => rfl

/-- Settles O56: the request's answer, the conditions, and what the outputs find when they act after a restart. -/
theorem restartPendsAndClearsTheDynamicState : Obligations.RestartPendsAndClearsTheDynamicState := by
  unfold Obligations.RestartPendsAndClearsTheDynamicState
  intro s notHeld
  refine ⟨fun l takes => ?_, fun early => ?_, fun p pending ended idle => ?_⟩
  · obtain ⟨t, served, responds, replies⟩ := serveRequest_acted takes .restart (act := answerRestart l) rfl rfl
    exact ⟨t, served, ((answerRestart_changesOnly l s).trans responds).mono (by decide), responds .startup (by decide),
      replies⟩
  · exact (execRestartEffect_eq notHeld).trans (by rw [State.restartIfDue_early early])
  · have effect : exec .restartEffect s = .next (s.restartNow p.link) :=
      (execRestartEffect_eq notHeld).trans (by rw [State.restartIfDue_due pending ended idle])
    generalize reached : s.restartNow p.link = t at effect
    obtain ⟨frame, started, posts⟩ := State.startOuts_spec (reached.symm.trans (s.restartNow_eq p.link))
      (fun o => by simp [OutRecord.cleared])
    simp only [State.post_out_kept, State.restartCleared_out, State.post_zones, State.post_now_kept,
      State.post_nowMs_kept, State.restartCleared_now, State.restartCleared_nowMs] at started posts
    obtain ⟨ring, newest, cursors⟩ := s.queue.emptied_post_start s.tick (.restart p.link) s.startup.source
    have startup : t.startup = (s.restartCleared p.link).startup := frame .startup (by decide)
    have zones : t.zones = (s.restartCleared p.link).zones := frame .zones (by decide)
    have zone : ∀ z, t.zone z = (s.zone z).restart s.now s.warm := fun z => by
      rw [State.zone_congr zones, State.restartCleared_zone]
    refine ⟨t, effect, ?_, frame .handed (by decide), ?_, fun n => ?_, fun z => ?_, ?_⟩
    · exact (((s.restartCleared_changesOnly p.link).trans (State.post_changesOnly _ _)).trans frame).mono (by decide)
    · rw [startup, State.restartCleared, addCause_restart]
    · rw [State.line_congr (frame .lines (by decide)), State.post_line_kept, State.restartCleared_line,
        LineRecord.startAfresh_same]
    · rw [zone]
      exact (s.zone z).restart_eq s.now s.warm
    · refine ⟨fun o => demandOf (s.restartCleared p.link).zones (s.out o).config, _, fun o => ?_, fun o => ?_,
        ring, newest, cursors, ?_⟩
      · rw [← zones]
        refine demandOf_after_reset t.zones (fun z => (s.zone z).active) (s.out o).config fun z => ?_
        have := (s.zone z).restart_demand s.now s.warm
        rwa [← zone] at this
      · rw [started, OutRecord.started_eq (r := (s.out o).cleared) rfl rfl rfl]
        rfl
      · simp only [Posts, State.post_tick, State.post_queue, State.restartCleared_tick,
          State.restartCleared_queue] at posts
        exact posts

/-! ### Full reset -/

/-- A write in flight leaves the image invalid, and any other image stands (R174). -/
theorem Store.stopWrite_eq (u : Store) :
    u.stopWrite =
      { u with image := { u.image with valid := u.image.valid && decide (u.state = .idle) }, state := .idle } := by
  obtain ⟨image, state, result⟩ := u
  cases state <;> simp [Store.stopWrite]

/-- The load takes an image that R175 accepts, and the defaults of any other. -/
theorem Image.load_spec (i : Image) :
    let accepted := i.valid = true ∧ i.check = Config.checkValue i.content ∧ WithinTheRules i.content
    (accepted → i.load.1 = i.content ∧ i.load.2 = .stored) ∧
      (¬accepted → AreDefaults i.load.1 ∧ i.load.2 = .defaults) := by
  intro accepted
  have same : i.accepted = true ↔ accepted := by
    simp only [Image.accepted, Bool.and_eq_true, beq_iff_eq, settingsAccepted_iff, and_assoc, accepted]
  unfold Image.load
  refine ⟨fun h => ?_, fun h => ?_⟩
  · rw [if_pos (same.2 h)]
    exact ⟨rfl, rfl⟩
  · rw [if_neg (fun h' => h (same.1 h'))]
    exact ⟨settingsDefault_areDefaults, rfl⟩

section
variable (c : Settings) (source : ConfigSource) (cause : Cause) (straps : BitVec 2) (s : State)

@[simp] theorem State.loaded_line (n : Fin 16) :
    (s.loaded c source cause straps).line n = LineRecord.fresh (s.line n).pin c.lines[n] := by
  simp [State.line, State.loaded]

@[simp] theorem State.loaded_zone (z : Fin 8) :
    (s.loaded c source cause straps).zone z = ZoneRecord.fresh c.zones[z] := by
  simp [State.zone, State.loaded]

@[simp] theorem State.loaded_out (o : Fin 4) : (s.loaded c source cause straps).out o = OutRecord.fresh c.outs[o] := by
  simp [State.out, State.loaded]

end

/-- START after a full reset: the one entry of the ring, seq 1 (R102). -/
theorem Queue.loaded_post_start (links : PerLink LinkSettings) (tick : Nat) (c : Cause) (source : ConfigSource) :
    let q : Queue := { ring := [], newest := 0, cursors := links.map (fun x => CursorRecord.fresh x 1) }
    (q.post tick (.start c source)).ring = [{ seq := 1, time := uptimeOf tick, content := .start c source }] ∧
      (q.post tick (.start c source)).newest = 1 ∧
      ∀ l, (q.post tick (.start c source)).cursors.get l =
        { cursor := 1, backlog := 1, missed := 0, lagging := false, settings := links.get l, gatherAt := none,
          attention := true } := by
  intro q
  have cursors : ∀ l, q.cursors.get l = CursorRecord.fresh (links.get l) 1 := fun l => PerLink.get_map ..
  obtain ⟨ring, newest, posted⟩ := q.post_start_empty tick c source rfl (fun l => ⟨_, cursors l⟩)
  refine ⟨ring, newest, fun l => (posted l).trans ?_⟩
  rw [cursors]
  rfl

theorem ZoneRecord.fresh_demand (c : ZoneConfig) :
    (ZoneRecord.fresh c).active = c ∧ (ZoneRecord.fresh c).hold = none ∧ (ZoneRecord.fresh c).latch = none ∧
      ((ZoneRecord.fresh c).status = .starting ∨ (ZoneRecord.fresh c).status = .disabled) := by
  refine ⟨rfl, rfl, rfl, ?_⟩
  unfold ZoneRecord.fresh
  cases zoneEnabled c <;> simp

theorem ZoneRecord.fresh_eq (c : ZoneConfig) :
    ZoneRecord.fresh c =
      { active := c, pendingConfig := none,
        status := if c.air ≠ none ∧ c.surfaces ≠ [] then .starting else .disabled, level := .clear, pending := none,
        failCount := 0, unknownReason := none, deadline := none, history := [], lastEval := none, epoch := 0,
        hold := none, latch := none } := by
  simp only [ZoneRecord.fresh, zoneEnabled_iff]

/-- The part as a full reset loads it from the image, before START is posted (R175, R176). -/
def State.resetLoaded (image : Image) (powerRose : Bool) (straps : BitVec 2) (s : State) : State :=
  { s with store := { s.store with image := image } }.loaded image.load.1 image.load.2 (resetCause powerRose) straps

/-- A full reset ends with the outputs acting on what it loaded (R126). -/
theorem execFullReset_acts {image : Image} {s : State} (h : s.store.stopWrite.image = image) (powerRose : Bool)
    (straps : BitVec 2) :
    ∃ t, execFullReset powerRose straps s = .next t ∧
      t = (List.finRange 4).foldl (fun s o => s.startOut o)
        ((s.resetLoaded image powerRose straps).post (.start (resetCause powerRose) image.load.2)) := by
  subst h
  exact ⟨_, rfl, rfl⟩

theorem uptimeOf_zero : uptimeOf 0 = 0 := by decide

section
variable (image : Image) (powerRose : Bool) (straps : BitVec 2) (s : State)

@[simp] theorem State.resetLoaded_now : (s.resetLoaded image powerRose straps).now = 0 := uptimeOf_zero

@[simp] theorem State.resetLoaded_nowMs : (s.resetLoaded image powerRose straps).nowMs = 0 :=
  show uptimeMsOf 0 = 0 by decide

@[simp] theorem State.resetLoaded_line (n : Fin 16) :
    (s.resetLoaded image powerRose straps).line n = LineRecord.fresh (s.line n).pin image.load.1.lines[n] :=
  State.loaded_line ..

@[simp] theorem State.resetLoaded_zone (z : Fin 8) :
    (s.resetLoaded image powerRose straps).zone z = ZoneRecord.fresh image.load.1.zones[z] := State.loaded_zone ..

@[simp] theorem State.resetLoaded_out (o : Fin 4) :
    (s.resetLoaded image powerRose straps).out o = OutRecord.fresh image.load.1.outs[o] := State.loaded_out ..

end

/-- Settles O55: the load, START, and what the outputs find when they act after a full reset. -/
theorem fullResetLoadsAndStarts : Obligations.FullResetLoadsAndStarts := by
  unfold Obligations.FullResetLoadsAndStarts
  intro powerRose straps s image accepted
  obtain ⟨stored, defaults⟩ := image.load_spec
  obtain ⟨t, reset, acts⟩ := execFullReset_acts (image := image) (by rw [Store.stopWrite_eq]) powerRose straps
  obtain ⟨frame, started, posts⟩ := State.startOuts_spec acts (fun o => by simp [OutRecord.fresh])
  simp only [State.post_out_kept, State.post_zones, State.post_now_kept, State.post_nowMs_kept,
    State.resetLoaded_now, State.resetLoaded_nowMs, State.resetLoaded_out] at started posts
  obtain ⟨ring, newest, cursors⟩ := Queue.loaded_post_start image.load.1.links 0 (resetCause powerRose) image.load.2
  have zones : t.zones = (s.resetLoaded image powerRose straps).zones := frame .zones (by decide)
  have zone : ∀ z, t.zone z = ZoneRecord.fresh image.load.1.zones[z] := fun z => by
    rw [State.zone_congr zones, State.resetLoaded_zone]
  have links : t.links = .all LinkRecord.fresh := frame .links (by decide)
  refine ⟨t, image.load.1, image.load.2,
    fun o => demandOf (s.resetLoaded image powerRose straps).zones image.load.1.outs[o], _, reset, stored, defaults,
    frame .tick (by decide), frame .handed (by decide), frame .rank (by decide), frame .pending (by decide),
    frame .store (by decide), ?_, fun l => ?_, fun n => ?_, fun z => ?_, fun o => ?_, fun o => ?_, ?_, newest, cursors,
    posts⟩
  · rw [show t.startup = (s.resetLoaded image powerRose straps).startup from frame .startup (by decide)]
    cases powerRose <;> rfl
  · rw [State.link, links, PerLink.get_all]
    rfl
  · rw [State.line_congr (frame .lines (by decide)), State.post_line_kept, State.resetLoaded_line]
    rfl
  · rw [zone, ZoneRecord.fresh_eq]
  · rw [← zones]
    refine demandOf_after_reset t.zones (fun z => image.load.1.zones[z]) image.load.1.outs[o] fun z => ?_
    have := ZoneRecord.fresh_demand image.load.1.zones[z]
    rwa [← zone] at this
  · rw [started, OutRecord.started_eq (r := OutRecord.fresh image.load.1.outs[o]) rfl rfl rfl]
    simp only [Nat.zero_add]
    rfl
  · rw [ring, uptimeOf_zero]
    rfl

end Sys2Proof.Machine
end

/-! ## Bodies field by field, and the reads that answer them -/

section
/-!
PROOFS. The bodies of LINE GET, ZONE GET, OUT GET and STATUS laid out field by field (R168, R169, R171), and the reads
that answer them (R21, R104, R125, R145, R164, R165, R180).
-/

namespace Sys2Proof.Machine

/-! ### Fields laid end to end -/

/-- The bytes are these fields laid end to end, from offset `a` up to offset `e`. -/
def Lies (a : Nat) (bs : List Byte) (fs : List Field) (e : Nat) : Prop :=
  ∃ pieces values, Pieces pieces values ∧ pieces.flatten = bs ∧ fieldsFrom a values = fs ∧ a + bs.length = e

theorem Lies.nil (a : Nat) : Lies a [] [] a := ⟨[], [], trivial, rfl, rfl, rfl⟩

theorem Lies.bytes {a w e : Nat} {v : Int} {b bs : List Byte} {fs : List Field} (h : Worth b w v)
    (k : Lies (a + w) bs fs e) : Lies a (b ++ bs) (⟨a, w, v⟩ :: fs) e := by
  obtain ⟨pieces, values, laid, rfl, rfl, rfl⟩ := k
  exact ⟨b :: pieces, (w, v) :: values, ⟨h, laid⟩, rfl, rfl, by rw [List.length_append, h.1, Nat.add_assoc]⟩

theorem Lies.byte {a e : Nat} {v : Int} {x : Byte} {bs : List Byte} {fs : List Field} (h : Worth [x] 1 v)
    (k : Lies (a + 1) bs fs e) : Lies a (x :: bs) (⟨a, 1, v⟩ :: fs) e := k.bytes h

/-- Bytes that are the last field. -/
theorem Lies.last {a w : Nat} {v : Int} {b : List Byte} (h : Worth b w v) : Lies a b [⟨a, w, v⟩] (a + w) := by
  simpa using (Lies.nil (a + w)).bytes h

theorem Lies.append {a m e : Nat} {bs cs : List Byte} {fs gs : List Field} (h : Lies a bs fs m) (k : Lies m cs gs e) :
    Lies a (bs ++ cs) (fs ++ gs) e := by
  obtain ⟨pieces, values, laid, rfl, rfl, rfl⟩ := h
  induction pieces generalizing a values with
  | nil =>
    cases values with
    | nil => exact k
    | cons v vs => exact laid.elim
  | cons b pieces ih =>
    cases values with
    | nil => exact laid.elim
    | cons v vs =>
      have rest := ih (a := a + v.1) vs laid.2 (by rwa [← laid.1.1, Nat.add_assoc, ← List.length_append])
      rw [List.flatten_cons, List.append_assoc]
      exact rest.bytes laid.1

/-- A body laid out from its first byte has its fields, and the length they make. -/
theorem Lies.fields {bs : List Byte} {fs : List Field} {e : Nat} (h : Lies 0 bs fs e) :
    bs.length = e ∧ HasFields bs fs := by
  obtain ⟨pieces, values, laid, rfl, rfl, rfl⟩ := h
  exact ⟨(Nat.zero_add _).symm, laid.hasFields []⟩

/-! ### What the codes are worth -/

theorem zeros_worth (n : Nat) : Worth (List.replicate n 0) n 0 := by
  refine ⟨List.length_replicate, ?_⟩
  have zero : littleEndian (List.replicate n 0) = 0 := by
    induction n with
    | zero => rfl
    | succ n ih => rw [List.replicate_succ, littleEndian, ih]; rfl
  rw [zero]
  simp

theorem kindCode_worth (k : LineKind) : Worth [byteOf (kindCode k)] 1 (codeIn [.off, .air, .surface] k) := by
  cases k <;> exact ⟨rfl, by decide⟩

theorem edgeCode_worth (e : Edge) : Worth [byteOf (edgeCode e)] 1 (codeIn [.rising, .falling] e) := by
  cases e <;> exact ⟨rfl, by decide⟩

theorem linePolarityCode_worth (p : LinePolarity) :
    Worth [byteOf (linePolarityCode p)] 1 (codeIn [.normal, .inverted] p) := by
  cases p <;> exact ⟨rfl, by decide⟩

theorem windowCode_worth (w : WindowSize) : Worth [byteOf (windowCode w)] 1 (codeIn [.w16, .w64, .w256] w) := by
  cases w <;> exact ⟨rfl, by decide⟩

theorem LineState.code_worth (x : LineState) :
    Worth [byteOf x.code] 1 (codeIn [.off, .warmup, .acquiring, .stalled] x) := by
  cases x <;> exact ⟨rfl, by decide⟩

theorem Quality.code_worth (q : Quality) : Worth [byteOf q.code] 1 (codeIn [.none, .good, .saturated, .range] q) := by
  cases q <;> exact ⟨rfl, by decide⟩

theorem sourceCode_worth (x : OutSource) : Worth [byteOf (sourceCode x)] 1 (codeIn [.off, .demand, .latch] x) := by
  cases x <;> exact ⟨rfl, by decide⟩

theorem outPolarityCode_worth (p : OutPolarity) :
    Worth [byteOf (outPolarityCode p)] 1 (codeIn [.activeHigh, .activeLow] p) := by
  cases p <;> exact ⟨rfl, by decide⟩

theorem driveCode_worth (d : OutDrive) : Worth [byteOf (driveCode d)] 1 (codeIn [.pushPull, .openDrain] d) := by
  cases d <;> exact ⟨rfl, by decide⟩

theorem modeCode_worth (m : OutMode) : Worth [byteOf (modeCode m)] 1 (codeIn [.steady, .blink] m) := by
  cases m <;> exact ⟨rfl, by decide⟩

theorem OutState.code_worth (x : OutState) :
    Worth [byteOf x.code] 1 (codeIn [.offFree, .offHeld, .onHeld, .onFree] x) := by
  cases x <;> exact ⟨rfl, by decide⟩

theorem ZoneStatus.code_worth (x : ZoneStatus) :
    Worth [byteOf x.code] 1 (codeIn [.disabled, .starting, .active, .unknown] x) := by
  cases x <;> exact ⟨rfl, by decide⟩

theorem reasonCode_worth (x : Option UnknownReason) :
    Worth [byteOf (reasonCode x)] 1 (codeIn [none, some .stale, some .airBad, some .noSurface] x) := by
  rcases x with - | x
  · exact ⟨rfl, by decide⟩
  · cases x <;> exact ⟨rfl, by decide⟩

theorem storeResultCode_worth (x : Option StoreResult) :
    Worth [byteOf (storeResultCode x)] 1 (codeIn [none, some .saved, some .failed] x) := by
  rcases x with - | x
  · exact ⟨rfl, by decide⟩
  · cases x <;> exact ⟨rfl, by decide⟩

theorem storeStateByte_worth (x : StoreState) : Worth [storeStateByte x] 1 (if x = .idle then 0 else 1) := by
  cases x with
  | idle => exact ⟨rfl, by decide⟩
  | writing snapshot => exact byteOf_worth 1

theorem levelByte_worth (x : Level) : Worth [levelByte x] 1 (levelCodeOf (some x)) := levelByteOpt_worth (some x)

theorem airByte_worth (n : Option LineId) : Worth [airByte n] 1 (lineNumber n) := by
  cases n with
  | none => exact zeros_worth 1
  | some n => exact lineByte_worth n

theorem evalFlags_worth (e : LastEval) :
    Worth [evalFlags e] 1 (flagCode e.dpFloor + 2 * flagCode e.saturatedInput + 4 * flagCode e.agedSurface) := by
  unfold evalFlags
  generalize e.dpFloor = x, e.saturatedInput = y, e.agedSurface = z
  refine ⟨rfl, ?_⟩
  revert x y z
  decide

theorem secondsLeft_eq_leftBefore (now t : Word) : (secondsLeft now t : Int) = leftBefore now t := by
  have half : (2 : ℕ) ^ 31 = 2147483648 := rfl
  simp only [secondsLeft, leftBefore, reached, decide_eq_true_eq, half]
  split_ifs <;> rfl

theorem minutesLeft_eq_minutesBefore (now t : Word) : (minutesLeft now t : Int) = minutesBefore now t := by
  simp [minutesLeft, minutesBefore, secondsLeft_eq_leftBefore]

theorem secondsLeft_worth (now t : Word) : Worth (halfOf (secondsLeft now t)) 2 (leftBefore now t) :=
  secondsLeft_eq_leftBefore now t ▸ halfOf_worth _

theorem minutesLeft_worth (now t : Word) : Worth (halfOf (minutesLeft now t)) 2 (minutesBefore now t) :=
  minutesLeft_eq_minutesBefore now t ▸ halfOf_worth _

/-! ### The blocks of configuration -/

theorem lineBlock_lies (a : Nat) (c : LineConfig) : Lies a (lineBlockBytes c) (lineBlockFields a c) (a + 21) := by
  simp only [lineBlockBytes, List.append_assoc, List.cons_append, List.nil_append]
  exact .byte (kindCode_worth _) <| .byte (edgeCode_worth _) <| .byte (linePolarityCode_worth _) <|
    .byte (windowCode_worth _) <| .byte (byteOf_worth _) <| .bytes (wordOfInt_worth _) <| .bytes (wordOfInt_worth _) <|
    .bytes (halfOfInt_worth _) <| .bytes (wordOfInt_worth _) <| .last (halfOfInt_worth _)

/-- Surface lines, a byte each. -/
theorem surfaces_lie (a : Nat) (ns : List LineId) :
    Lies a (ns.map lineByte) (ns.mapIdx fun k n => ⟨a + k, 1, lineNumber (some n)⟩) (a + ns.length) := by
  induction ns generalizing a with
  | nil => exact .nil a
  | cons n ns ih =>
    rw [List.mapIdx_cons, List.length_cons, List.map_cons]
    refine .byte (lineByte_worth n) ?_
    have rest := ih (a + 1)
    simpa only [Nat.add_assoc, Nat.add_comm 1] using rest

theorem zoneBlock_lies (a : Nat) (c : ZoneConfig) :
    Lies a (zoneBlockBytes c) (zoneBlockFields a c) (a + 19 + c.surfaces.length) := by
  have whole : a + 19 + c.surfaces.length = a + 2 + c.surfaces.length + 17 := by omega
  rw [whole]
  simp only [zoneBlockBytes, List.append_assoc, List.cons_append, List.nil_append]
  refine .byte (airByte_worth _) <| .byte (byteOf_worth _) <| .append (surfaces_lie (a + 2) c.surfaces) ?_
  exact .bytes (halfOfInt_worth _) <| .bytes (halfOfInt_worth _) <| .bytes (halfOfInt_worth _) <|
    .bytes (halfOfInt_worth _) <| .byte (byteOf_worth _) <| .byte (byteOf_worth _) <| .byte (byteOf_worth _) <|
    .byte (levelByte_worth _) <| .byte (byteOf_worth _) <| .bytes (halfOf_worth _) <| .last (halfOf_worth _)

theorem outBlock_lies (a : Nat) (c : OutConfig) : Lies a (outBlockBytes c) (outBlockFields a c) (a + 13) := by
  simp only [outBlockBytes, List.append_assoc, List.cons_append, List.nil_append]
  exact .byte (sourceCode_worth _) <| .byte (byte_worth _) <| .byte (levelByte_worth _) <| .byte (flagByte_worth _) <|
    .byte (outPolarityCode_worth _) <| .byte (driveCode_worth _) <| .byte (modeCode_worth _) <|
    .bytes (halfOf_worth _) <| .bytes (halfOf_worth _) <| .byte (byteOf_worth _) <| .last (byteOf_worth _)

/-! ### LINE GET -/

/-- Zones whose pending configuration is one `p` holds of. -/
theorem pendingIs_worth (p : ZoneConfig → Bool) (s : State) :
    Worth [zonesWhere (fun z => (s.zone z).pendingIs p)] 1
      (maskOf (fun z => (s.zone z).pendingConfig.any (fun c => p c.config))) := by
  have same : ∀ z, (s.zone z).pendingIs p = (s.zone z).pendingConfig.any (fun c => p c.config) := fun z => by
    rw [ZoneRecord.pendingIs]
    rcases (s.zone z).pendingConfig with - | c <;> rfl
  simp only [same]
  exact zonesWhere_worth _

theorem lineBody_lies (n : LineId) (s : State) : Lies 0 (lineBody n s) (lineGetFields n s) 45 := by
  have surfaceOf : ∀ c : ZoneConfig, decide (n ∈ c.surfaces) = namesSurface n c := fun c => by
    rw [namesSurface, Bool.eq_iff_iff, decide_eq_true_eq, List.contains_iff_mem]
  simp only [lineBody, lineGetFields, List.append_assoc, List.cons_append, List.nil_append, surfaceOf]
  refine .byte (lineByte_worth n) <| .append (lineBlock_lies 1 _) <| .byte (LineState.code_worth _) <|
    .byte (flagByte_worth _) <| .byte ?window <| .byte (Quality.code_worth _) <| .byte (flagByte_worth _) <|
    .byte (flagByte_worth _) <| .append (m := 34) (fs := [_, _]) ?raw <| .byte (flagByte_worth _) <|
    .append (m := 41) (fs := [_, _, _]) ?good <| .byte (zonesWhere_worth _) <| .byte (pendingIs_worth (namesAir n) s) <|
    .byte (zonesWhere_worth _) <| .last (pendingIs_worth (namesSurface n) s)
  case window =>
    rcases (s.line n).window with - | w
    · exact byteOf_worth 0
    · exact byteOf_worth _
  case raw =>
    rcases (s.line n).lastRaw with - | x
    · exact .bytes (wordOfInt_worth 0) <| .last (halfOfInt_worth 0)
    · exact .bytes (wordOfInt_worth _) <| .last (halfOfInt_worth _)
  case good =>
    rcases (s.line n).lastGood with - | g
    · simp only [Option.map_none, Option.getD_none, ite_self]
      exact .bytes (halfOf_worth 0) <| .bytes (halfOf_worth 0) <| .last (halfOf_worth 0)
    · exact .bytes (halfOfInt_worth _) <| .bytes (halfOfInt_worth _) <| .last (halfOf_worth _)

/-! ### ZONE GET -/

theorem zoneActiveBody_lies (z : ZoneId) (r : ZoneRecord) :
    Lies 0 (zoneActiveBody z r) (zoneActiveFields z r) (21 + r.active.surfaces.length) :=
  .byte (byteOf_worth _) <| .byte (byte_worth _) <| zoneBlock_lies 2 r.active

theorem zonePendingBody_lies_of_none (z : ZoneId) {r : ZoneRecord} (h : r.pendingConfig = none) :
    Lies 0 (zonePendingBody z r) (zonePendingFields z r) 4 := by
  simp only [zonePendingBody, zonePendingFields, h]
  exact .byte (byteOf_worth _) <| .byte (byte_worth _) <| .byte (flagByte_worth false) <| .last (linkByte_worth none)

theorem zonePendingBody_lies_of_some (z : ZoneId) {r : ZoneRecord} {p : PendingConfig} (h : r.pendingConfig = some p) :
    Lies 0 (zonePendingBody z r) (zonePendingFields z r) (23 + p.config.surfaces.length) := by
  simp only [zonePendingBody, zonePendingFields, h]
  exact .byte (byteOf_worth _) <| .byte (byte_worth _) <| .byte (flagByte_worth true) <|
    .byte (linkByte_worth (some p.writer)) <| zoneBlock_lies 4 p.config

theorem zoneStateBody_lies (now : Word) (z : ZoneId) (r : ZoneRecord) :
    Lies 0 (zoneStateBody now z r) (zoneStateFields now z r) 18 := by
  simp only [zoneStateBody, zoneStateFields, List.append_assoc, List.cons_append, List.nil_append]
  refine .byte (byteOf_worth _) <| .byte (byte_worth _) <| .byte (ZoneStatus.code_worth _) <|
    .byte (reasonCode_worth _) <| .byte (levelByte_worth _) <| .append (m := 7) (fs := [_, _]) ?pending <|
    .byte (byteOf_worth _) <| .bytes ?deadline <| .byte (levelByteOpt_worth _) <| .append (m := 16) ?hold <|
    .last ?latch
  case pending =>
    rcases r.pending with - | p
    · exact .byte (levelByteOpt_worth none) <| .last (byteOf_worth 0)
    · exact .byte (levelByte_worth _) <| .last (byteOf_worth _)
  case deadline =>
    rcases r.deadline with - | d
    · exact halfOf_worth 0
    · exact secondsLeft_worth now d
  case hold =>
    rcases r.hold with - | ⟨mode, link, expiry⟩
    · exact .byte (byteOf_worth 0) <| .byte (levelByteOpt_worth none) <| .byte (linkByte_worth none) <|
        .last (halfOf_worth 0)
    · cases mode with
      | suppress =>
        exact .byte (byteOf_worth 1) <| .byte (levelByteOpt_worth none) <| .byte (linkByte_worth _) <|
          .last (minutesLeft_worth now expiry)
      | assert x =>
        exact .byte (byteOf_worth 2) <| .byte (levelByteOpt_worth (some x)) <| .byte (linkByte_worth _) <|
          .last (minutesLeft_worth now expiry)
  case latch =>
    rcases r.latch with - | n
    · exact halfOf_worth 0
    · exact halfOf_worth n

theorem zoneEvalBody_lies (z : ZoneId) (r : ZoneRecord) : Lies 0 (zoneEvalBody z r) (zoneEvalFields z r) 33 := by
  have four : List.range 4 = [0, 1, 2, 3] := rfl
  simp only [zoneEvalBody, zoneEvalFields, four, List.flatMap_cons, List.flatMap_nil, List.append_nil,
    List.append_assoc, List.cons_append, List.nil_append]
  refine .byte (byteOf_worth _) <| .byte (byte_worth _) <| .byte (byteOf_worth _) <| .bytes (halfOfInt_worth _) <|
    .bytes (halfOfInt_worth _) <| .bytes (halfOfInt_worth _) <| .bytes (halfOfInt_worth _) ?last
  rcases r.lastEval with - | e
  · exact .last (zeros_worth 22)
  · simp only [lastEvalBytes, List.append_assoc, List.cons_append, List.nil_append]
    exact .byte (byteOf_worth 1) <| .bytes (wordBytes_worth _) <| .bytes (halfOfInt_worth _) <|
      .bytes (halfOfInt_worth _) <| .bytes (halfOfInt_worth _) <| .bytes (halfOfInt_worth _) <|
      .byte (evalFlags_worth e) <| .bytes (halfOfInt_worth _) <| .byte (flagByte_worth _) <|
      .bytes (halfOfInt_worth _) <| .bytes (halfOfInt_worth _) <| .last (lineByte_worth _)

/-! ### OUT GET -/

theorem claimBytes_lie (a : Nat) (now : Word) (c : Option Claim) :
    Lies a (claimBytes now c) (claimFields a now c) (a + 4) := by
  cases c with
  | none => exact .last (zeros_worth 4)
  | some c => exact .byte (byteOf_worth 1) <| .byte (flagByte_worth c.on) <| .last (minutesLeft_worth now c.expiry)

theorem OutState.isOn_eq (x : OutState) : x.isOn = decide (x = .onHeld ∨ x = .onFree) := by
  cases x <;> rfl

theorem OutState.isHeld_eq (x : OutState) : x.isHeld = decide (x = .onHeld ∨ x = .offHeld) := by
  cases x <;> rfl

theorem OutRecord.minTime_eq (r : OutRecord) :
    r.minTime =
      if r.outState = .onHeld then r.config.minOnS else if r.outState = .offHeld then r.config.minOffS else 0 := by
  rw [OutRecord.minTime]
  cases r.outState <;> rfl

theorem OutRecord.pinActive_eq (r : OutRecord) :
    r.pinActive =
      (decide (r.outState = .onHeld ∨ r.outState = .onFree) &&
        (decide (r.config.mode = .steady) || r.blink.any (fun b => b.onPhase))) := by
  rw [OutRecord.pinActive, OutState.isOn_eq]
  rcases r.config.mode with - | -
  · rfl
  · rcases r.blink with - | b <;> rfl

theorem outBody_lies (o : OutId) (s : State) : Lies 0 (outBody o s) (outGetFields o s) 38 := by
  simp only [outBody, outGetFields, rankBytes, OutRecord.holdEnd, OutRecord.minTime_eq, OutRecord.deferred,
    OutState.isHeld_eq, OutState.isOn_eq, OutRecord.pinActive_eq, List.append_assoc, List.cons_append, List.nil_append]
  refine .byte (byteOf_worth _) <| .append (outBlock_lies 1 _) <| .byte (flagByte_worth _) <|
    .append (claimBytes_lie 15 _ _) <| .append (claimBytes_lie 19 _ _) <| .append (claimBytes_lie 23 _ _) <|
    .byte (linkByte_worth _) <| .byte (linkByte_worth _) <| .byte (linkByte_worth _) <| .byte (linkByte_worth _) <|
    .byte (flagByte_worth _) <| .byte (flagByte_worth _) <| .byte (OutState.code_worth _) <| .bytes ?hold <|
    .byte (flagByte_worth _) <| .last (flagByte_worth _)
  rcases (s.out o).holdStart with - | t
  · exact halfOf_worth 0
  · exact secondsLeft_worth _ _

/-! ### STATUS -/

theorem statusBody_lies (l : Link) (s : State) : Lies 0 (statusBody l s) (statusFields l s) 18 := by
  simp only [statusBody, statusFields, List.append_assoc, List.cons_append, List.nil_append]
  refine .byte (byte_worth familyCode) <| .byte (byte_worth revisionCode) <| .bytes (wordBytes_worth _) <|
    .byte (flagByte_worth _) <| .byte (storeStateByte_worth _) <| .byte (storeResultCode_worth _) <| .byte ?causes <|
    .bytes (halfOf_worth _) <| .byte (byteOf_worth _) <| .byte (byteOf_worth _) <| .bytes ?oldest <|
    .last (halfOf_worth _)
  case causes =>
    have widened := byte_worth ((s.startup.causes.get l).setWidth 8)
    rwa [BitVec.toNat_setWidth_of_le (by decide)] at widened
  case oldest =>
    rw [Queue.oldest]
    rcases s.queue.ring with - | ⟨e, ring⟩ <;> exact halfOf_worth _

/-! ### The reads answered -/

/-- A read taken and answered with a body that leaves the state: DONE with its fields, and the link's record alone. -/
theorem serveRequest_reads {l : Link} {k : RequestKind} {i : Instr} {act : State → Answer} {s : State}
    {body : List Byte} {fs : List Field} {e : Nat} (takes : Takes l i s)
    (answered : act s = { state := s, status := .done, body := body }) (lies : Lies 0 body fs e) :
    ∃ t, serveRequest l k i act s = .next t ∧ ChangesOnly [.links] s t ∧
      ∃ body, Replies l k.code .done body s t ∧ body.length = e ∧ HasFields body fs := by
  obtain ⟨t, served, frame, replies⟩ := serveRequest_refused takes k act _ _ answered
  exact ⟨t, served, frame, body, replies, lies.fields⟩

/-- A ZONE GET of an existing zone is answered with the body of its part. -/
theorem answerZoneGet_part {b part : Byte} {z : ZoneId} {s : State} {body : List Byte} (h : b.toNat = z.val + 1)
    (read : zonePart z part s = some body) :
    answerZoneGet b part s = { state := s, status := .done, body := body } := by
  have zone : zoneOf b = some z := indexOf_eq_some.2 h
  simp only [answerZoneGet, zone, read]

/-- STATUS empties its link's cause set and leaves every other part. -/
theorem answerStatus_changesOnly (l : Link) (s : State) : ChangesOnly [.startup] s (answerStatus l s).state := by
  intro p other
  cases p with
  | startup => exact absurd (by decide) other
  | _ => rfl

/-- Settles O10: each body laid out field by field, and STATUS emptying its own link's cause set as it answers. -/
theorem readsAnswerTheRecord : Obligations.ReadsAnswerTheRecord := by
  unfold Obligations.ReadsAnswerTheRecord
  refine ⟨fun l s => ⟨fun b n takes number => ?_, fun b z number => ⟨fun takes => ?_, fun takes => ⟨fun none => ?_,
    fun p some => ?_⟩, fun takes => ?_, fun takes => ?_⟩, fun b o takes number => ?_, fun takes => ?_⟩,
    fun kind status flags body => ?_, by decide, by decide⟩
  · have line : lineOf b = some n := indexOf_eq_some.2 number
    exact serveRequest_reads takes (by simp only [answerLineGet, line]) (lineBody_lies n s)
  · exact serveRequest_reads takes (answerZoneGet_part number rfl) (zoneActiveBody_lies z _)
  · exact serveRequest_reads takes (answerZoneGet_part number rfl) (zonePendingBody_lies_of_none z none)
  · exact serveRequest_reads takes (answerZoneGet_part number rfl) (zonePendingBody_lies_of_some z some)
  · exact serveRequest_reads takes (answerZoneGet_part number rfl) (zoneStateBody_lies _ z _)
  · exact serveRequest_reads takes (answerZoneGet_part number rfl) (zoneEvalBody_lies z _)
  · have out : outOf b = some o := indexOf_eq_some.2 number
    exact serveRequest_reads takes (by simp only [answerOutGet, out]) (outBody_lies o s)
  · obtain ⟨t, served, responds, replies⟩ := serveRequest_acted (act := answerStatus l) takes .status rfl rfl
    exact ⟨t, ⟨served, ((answerStatus_changesOnly l s).trans responds).mono (by decide), statusBody l s, replies,
      (statusBody_lies l s).fields⟩, responds .startup (by decide)⟩
  · exact ⟨_, rfl, by rw [BitVec.add_comm]; exact BitVec.sub_add_cancel _ _⟩

end Sys2Proof.Machine
end

/-! ## The condensation arithmetic -/

section
/-!
PROOFS. What the rules of the condensation arithmetic compute: rounding (R39), pressure and dew point over the knots
(R25, R27 to R31), the raw margin and its line (R32), the projection and the governing margin (R34, R35, R37, R38).
-/

namespace Sys2Proof.Machine

/-! ### Rounding to the nearest -/

/-- Rounding treats a negative quantity as it treats the positive one. -/
theorem rounded_neg (a : Int) {b : Int} (hb : 0 < b) : rounded (-a) b = -rounded a b := by
  rcases lt_trichotomy a 0 with neg | rfl | pos
  · rw [rounded, rounded, if_pos (by omega), if_neg (by omega), neg_neg]
  · rw [neg_zero, ← zero_mul b, rounded_mul 0 hb, neg_zero]
  · rw [rounded, rounded, if_neg (by omega), if_pos (by omega), neg_neg]

/-- The quotient is less than one half above the rounded one, so that a half is rounded up (R39). -/
theorem lt_rounded_of_nonneg {a b : Int} (ha : 0 ≤ a) (hb : 0 < b) : 2 * a - b < 2 * (b * rounded a b) := by
  rw [rounded, if_pos ha]
  have below := Int.lt_mul_ediv_self_add (x := 2 * a + b) (k := 2 * b) (by omega)
  rw [mul_assoc] at below
  omega

theorem rounded_nearest_of_nonneg {a b : Int} (ha : 0 ≤ a) (hb : 0 < b) :
    2 * |a - b * rounded a b| ≤ b ∧ (2 * |a - b * rounded a b| = b → |a| < |b * rounded a b|) := by
  have below := lt_rounded_of_nonneg ha hb
  have above := (rounded_bounds a hb).2
  have nonneg : 0 ≤ b * rounded a b := mul_nonneg hb.le (rounded_nonneg ha hb)
  rw [mul_assoc] at above
  rw [abs_of_nonneg ha, abs_of_nonneg nonneg]
  generalize b * rounded a b = q at *
  rcases abs_cases (a - q) with ⟨distance, -⟩ | ⟨distance, -⟩ <;> omega

/-- Settles O20: a quantity that is not negative from the bounds of its quotient, a negative one from its opposite. -/
theorem roundedIsNearestHalvesAway : Obligations.RoundedIsNearestHalvesAway := by
  unfold Obligations.RoundedIsNearestHalvesAway
  refine ⟨fun a b hb => ?_, by decide⟩
  rcases le_total 0 a with ha | ha
  · exact rounded_nearest_of_nonneg ha hb
  · have opposite := rounded_nearest_of_nonneg (a := -a) (by omega) hb
    rwa [rounded_neg a hb, mul_neg, sub_neg_eq_add, neg_add_eq_sub, abs_sub_comm, abs_neg, abs_neg] at opposite

/-! ### Pressure and dew point -/

theorem knots_getElem? {k : Nat} {a : Int} (h : knots[k]? = some a) : k ≤ 12 ∧ knot k = a := by
  obtain ⟨place, -⟩ := List.getElem?_eq_some_iff.1 h
  have size : knots.length = 13 := rfl
  refine ⟨by omega, ?_⟩
  rw [knot, List.getD_eq_getElem?_getD, h, Option.getD_some]

/-- Saturation pressure is interpolated between the two knots of the temperature's segment (R27). -/
theorem saturation_eq {k : Nat} {t : Int} (hk : k < 12) (h0 : 500 * (k : Int) ≤ t) (h1 : t < 500 * k + 500) :
    saturation t = knot k + rounded ((knot (k + 1) - knot k) * (t - 500 * k)) 500 := by
  have place : (t / 500).toNat = k := by omega
  rw [saturation, place]
  exact if_neg (by omega)

@[simp] theorem vapour_saturated (es : Int) : vapour es 1000 = es := rounded_mul es (by decide)

@[simp] theorem vapour_dry (es : Int) : vapour es 0 = 0 := by
  rw [vapour, mul_zero]
  decide

/-- The segment of a pressure is the one segment whose knots enclose it (R30 step 1). -/
theorem segment_eq {k : Nat} {e : Int} (hk : k ≤ 12) (low : knot k ≤ e) (high : k < 12 → e < knot (k + 1)) :
    segment e = k := by
  have least : knot 0 ≤ knot k := knot_mono (Nat.zero_le k) hk
  obtain ⟨most, lower, upper⟩ := segment_spec (e := e) (least.trans low)
  rcases lt_trichotomy (segment e) k with under | same | beyond
  · have := upper (by omega)
    have : knot (segment e + 1) ≤ knot k := knot_mono under hk
    omega
  · exact same
  · have := high (by omega)
    have : knot (k + 1) ≤ knot (segment e) := knot_mono beyond most
    omega

@[simp] theorem dewPointRaw_floor {e : Int} (h : e < 611) : dewPointRaw e = (0, true) := if_pos h

theorem dewPointRaw_of_le {e : Int} (h : 611 ≤ e) :
    dewPointRaw e =
      if segment e = 12 then (6000, false)
      else
        (500 * segment e + rounded (500 * (e - knot (segment e))) (knot (segment e + 1) - knot (segment e)), false) :=
  if_neg (not_lt.2 h)

/-- The flag DP_FLOOR tells a pressure below the first knot (R29, R30). -/
theorem dewPointRaw_flag (e : Int) : (dewPointRaw e).2 = true ↔ e < 611 := by
  by_cases floor : e < 611
  · simp [floor]
  · rw [dewPointRaw_of_le (not_lt.1 floor)]
    split_ifs <;> simp [floor]

/-- At or above knot 12 the dew point is its temperature (R30). -/
theorem dewPointRaw_top {e : Int} (h : knot 12 ≤ e) : dewPointRaw e = (6000, false) := by
  have first : (611 : Int) ≤ knot 12 := by decide
  rw [dewPointRaw_of_le (first.trans h), if_pos (segment_eq le_rfl h (by omega))]

/-- Within a segment the dew point is interpolated between the temperatures of its two knots (R30). -/
theorem dewPointRaw_segment {k : Nat} {e : Int} (hk : k < 12) (low : knot k ≤ e) (high : e < knot (k + 1)) :
    dewPointRaw e = (500 * k + rounded (500 * (e - knot k)) (knot (k + 1) - knot k), false) := by
  have first : knot 0 ≤ knot k := knot_mono (Nat.zero_le k) hk.le
  rw [dewPointRaw_of_le (first.trans low), segment_eq hk.le low fun _ => high, if_neg (by omega)]

/-- Within a segment the rounded temperature above the lower knot lies within the segment's 500 (R30). -/
theorem dewPointRaw_between {k : Nat} {e : Int} (low : knot k ≤ e) (high : e < knot (k + 1)) :
    0 ≤ rounded (500 * (e - knot k)) (knot (k + 1) - knot k) ∧
      rounded (500 * (e - knot k)) (knot (k + 1) - knot k) ≤ 500 :=
  ⟨rounded_nonneg (by omega) (by omega), rounded_part_le (by decide) (by omega) (by omega)⟩

/-- Settles O21: the values of a segment from the segment that the pressure or the temperature lies in. -/
theorem pressureAndDewPointFollowTheTable : Obligations.PressureAndDewPointFollowTheTable := by
  unfold Obligations.PressureAndDewPointFollowTheTable
  refine ⟨by decide, fun k t a b lower upper h0 h1 => ?_, fun es rh => ⟨rfl, vapour_saturated es, vapour_dry es⟩,
    fun k e a lower low high => ⟨fun top => ?_, fun b upper => ?_⟩, fun e t => ⟨rfl, fun h => min_eq_right h.le,
    fun h => min_eq_left h⟩, fun e t floor h => ?_, fun e t h => ?_, fun t h => ?_, fun t rh u us history lead =>
    ⟨rfl, rfl⟩⟩
  · obtain ⟨-, rfl⟩ := knots_getElem? lower
    obtain ⟨hk, rfl⟩ := knots_getElem? upper
    have value := saturation_eq (k := k) (t := t) (by omega) h0 (by omega)
    have between := saturation_between (k := k) (t := t) (by omega) h0 (by omega)
    exact ⟨value, by omega, by omega⟩
  · obtain ⟨-, rfl⟩ := knots_getElem? lower
    subst top
    exact dewPointRaw_top low
  · obtain ⟨-, rfl⟩ := knots_getElem? lower
    have below := high b upper
    obtain ⟨hk, rfl⟩ := knots_getElem? upper
    have value := dewPointRaw_segment (k := k) (by omega) low below
    have between := dewPointRaw_between low below
    rw [value]
    refine ⟨rfl, ?_, ?_⟩ <;> simp only <;> omega
  · rw [dewPoint, dewPointRaw_floor floor, min_eq_left h]
  · exact Bool.eq_false_iff.2 fun flag => absurd ((dewPointRaw_flag e).1 flag) (by omega)
  · rw [dewPoint, show dewPointRaw 611 = (0, false) by decide, min_eq_left h]

/-! ### The raw margin and the coldest line -/

/-- `best` is the smallest difference of the surfaces `vs` to the dew point, with the first line that gives it (R32). -/
structure FirstColdest (td : Int) (vs : List (LineId × Int)) (best : Int × LineId) : Prop where
  smallest : ∀ v ∈ vs, best.1 ≤ v.2 - td
  first : ∃ before temp after, vs = before ++ (best.2, temp) :: after ∧ temp - td = best.1 ∧
    ∀ v ∈ before, best.1 < v.2 - td

theorem FirstColdest.single (td : Int) (u : LineId × Int) : FirstColdest td [u] (u.2 - td, u.1) where
  smallest := by simp
  first := ⟨[], u.2, [], rfl, rfl, by simp⟩

/-- One more surface takes the place of the best only where it is colder. -/
theorem FirstColdest.concat {td : Int} {vs : List (LineId × Int)} {best : Int × LineId} (h : FirstColdest td vs best)
    (u : LineId × Int) : FirstColdest td (vs ++ [u]) (if u.2 - td < best.1 then (u.2 - td, u.1) else best) := by
  split_ifs with colder
  · have above : ∀ v ∈ vs, u.2 - td < v.2 - td := fun v hv => colder.trans_le (h.smallest v hv)
    refine ⟨fun v hv => ?_, vs, u.2, [], rfl, rfl, above⟩
    rcases List.mem_append.1 hv with hv | hv
    · exact (above v hv).le
    · rw [List.mem_singleton.1 hv]
  · obtain ⟨before, temp, after, parts, gives, above⟩ := h.first
    refine ⟨fun v hv => ?_, before, temp, after ++ [u], by simp [parts], gives, above⟩
    rcases List.mem_append.1 hv with hv | hv
    · exact h.smallest v hv
    · rw [List.mem_singleton.1 hv]
      exact not_lt.1 colder

/-- Going on from the best of the surfaces so far, the best of all is found. -/
theorem FirstColdest.goOn {td : Int} {vs us : List (LineId × Int)} {best : Int × LineId}
    (h : FirstColdest td vs best) : FirstColdest td (vs ++ us) (coldestFrom td best us) := by
  induction us generalizing vs best with
  | nil => simpa [coldestFrom] using h
  | cons u us ih => simpa [coldestFrom] using ih (h.concat u)

/-- Settles O24: the first surface is the best of itself, and the others are gone through from there. -/
theorem rawMarginIsTheSmallestDifference : Obligations.RawMarginIsTheSmallestDifference := by
  unfold Obligations.RawMarginIsTheSmallestDifference
  intro t rh u us history lead x
  have best : FirstColdest x.td (u :: us) (x.m, x.coldest) := (FirstColdest.single x.td u).goOn
  exact ⟨best.smallest, best.first⟩

/-! ### The projection and the governing margin -/

/-- A projection is made of four margins with m below the oldest, and of these only (R34, R35). -/
theorem project_eq_some_iff {history : List Int} {lead : Nat} {m p : Int} :
    project history lead m = some p ↔
      history.length = 4 ∧ ∃ h, history.head? = some h ∧ m < h ∧
        p = clampInt (-9999) 9999 (m + rounded ((m - h) * lead) 4) := by
  unfold project
  split
  next oldest _ _ _ => simp [eq_comm]
  next few =>
    refine ⟨fun h => (nomatch h), fun ⟨four, _⟩ => ?_⟩
    obtain ⟨w, x, y, z, rfl⟩ := List.length_eq_four.1 four
    exact absurd rfl (few w x y z)

theorem project_isSome_iff {history : List Int} {lead : Nat} {m : Int} :
    (project history lead m).isSome = true ↔ history.length = 4 ∧ ∃ h, history.head? = some h ∧ m < h := by
  simp only [Option.isSome_iff_exists, project_eq_some_iff]
  constructor
  · rintro ⟨p, four, h, oldest, falls, -⟩
    exact ⟨four, h, oldest, falls⟩
  · rintro ⟨four, h, oldest, falls⟩
    exact ⟨_, four, h, oldest, falls, rfl⟩

section
variable (t rh : Int) (u : LineId × Int) (us : List (LineId × Int)) (history : List Int) (lead : Nat)

theorem condensation_p :
    (condensation t rh u us history lead).p = project history lead (condensation t rh u us history lead).m := rfl

theorem condensation_g :
    (condensation t rh u us history lead).g =
      govern (condensation t rh u us history lead).m (condensation t rh u us history lead).p := rfl

/-- PROJECTED is set where the projection is present and below m (R38). -/
theorem condensation_projected :
    (condensation t rh u us history lead).projected = true ↔
      ∃ p, (condensation t rh u us history lead).p = some p ∧ p < (condensation t rh u us history lead).m := by
  rw [condensation]
  simp only
  split
  next made => simp [made]
  next absent => simp [absent]
end

/-- Settles O25: when the projection is made and what it is, then g and PROJECTED with it and without it. -/
theorem projectionAndGoverningMargin : Obligations.ProjectionAndGoverningMargin := by
  unfold Obligations.ProjectionAndGoverningMargin
  intro t rh u us history lead x
  have made : x.p = project history lead x.m := condensation_p t rh u us history lead
  have governs : x.g = govern x.m x.p := condensation_g t rh u us history lead
  have flag : x.projected = true ↔ ∃ p, x.p = some p ∧ p < x.m := condensation_projected t rh u us history lead
  refine ⟨?_, fun h p oldest present => ?_, fun p present => ⟨?_, ?_⟩, fun absent => ⟨?_, ?_⟩⟩
  · rw [made]
    exact project_isSome_iff
  · obtain ⟨-, h', oldest', -, value⟩ := project_eq_some_iff.1 (made.symm.trans present)
    obtain rfl := Option.some.inj (oldest.symm.trans oldest')
    exact value
  · rw [governs, present]
    rfl
  · simp [flag, present]
  · rw [governs, absent]
    rfl
  · simp [← Bool.not_eq_true, flag, absent]

end Sys2Proof.Machine
end

/-! ## Levels, failures and successes of an evaluation -/

section
/-!
SUPPORT and PROOFS. The threshold function and hysteresis (R51, R52), the settlement of the pending count (R44), and the
evaluations that go on: those that fail (R45 to R49) and those that succeed (R50 to R55, R61 to R63, R74).
-/

namespace Sys2Proof.Machine

/-! ### Levels -/

/-- Below ordered thresholds exactly one row of R51's table holds. -/
theorem thresholdLevel_iff {c : ZoneConfig} (wet : c.wetBelow < c.warnBelow) (warn : c.warnBelow < c.watchBelow)
    (x : Int) :
    (thresholdLevel c x = .wet ↔ x ≤ c.wetBelow) ∧
      (thresholdLevel c x = .warn ↔ c.wetBelow < x ∧ x ≤ c.warnBelow) ∧
      (thresholdLevel c x = .watch ↔ c.warnBelow < x ∧ x ≤ c.watchBelow) ∧
      (thresholdLevel c x = .clear ↔ c.watchBelow < x) := by
  unfold thresholdLevel
  split_ifs
  all_goals
    simp only [false_iff, true_iff]
    omega

/-- A smaller margin never gives a better level (R51). -/
theorem thresholdLevel_antitone (c : ZoneConfig) {x y : Int} (h : x ≤ y) :
    (thresholdLevel c y).rank ≤ (thresholdLevel c x).rank := by
  unfold thresholdLevel
  split_ifs
  all_goals
    simp only [Level.rank]
    omega

theorem betterLevel_rank (x y : Level) : (betterLevel x y).rank = min x.rank y.rank := by
  unfold betterLevel
  split_ifs
  · omega
  · omega

/-- At or above the level held the threshold itself decides (R52). -/
theorem rawLevel_of_le {c : ZoneConfig} {held : Level} {g : Int} (h : held.rank ≤ (thresholdLevel c g).rank) :
    rawLevel c held g = thresholdLevel c g := by
  rw [rawLevel, if_pos h]

/-- An improvement is the better of the level held and what g less the hysteresis supports (R52). -/
theorem rawLevel_of_lt {c : ZoneConfig} {held : Level} {g : Int} (h : (thresholdLevel c g).rank < held.rank) :
    rawLevel c held g = betterLevel held (thresholdLevel c (g - c.hyst)) := by
  rw [rawLevel, if_neg (by omega)]

/-- Without hysteresis the raw level is the threshold's (R52). -/
theorem rawLevel_of_hyst_zero {c : ZoneConfig} (h : c.hyst = 0) (held : Level) (g : Int) :
    rawLevel c held g = thresholdLevel c g := by
  rcases le_or_gt held.rank (thresholdLevel c g).rank with worse | better
  · exact rawLevel_of_le worse
  · rw [rawLevel_of_lt better, h, sub_zero, betterLevel, if_neg (by omega)]

/-- Settles O26: the rows of the table, then the two cases of hysteresis. -/
theorem thresholdsAndHysteresis : Obligations.ThresholdsAndHysteresis := by
  unfold Obligations.ThresholdsAndHysteresis
  refine ⟨by decide, fun c wet warn hyst => ⟨fun x => ?_, fun held g => ⟨rawLevel_of_le, fun better => ?_, ?_⟩⟩⟩
  · obtain ⟨isWet, isWarn, isWatch, isClear⟩ := thresholdLevel_iff wet warn x
    exact ⟨isWet, isWarn, isWatch, isClear, fun y h => thresholdLevel_antitone c h⟩
  · have supported : (thresholdLevel c g).rank ≤ (thresholdLevel c (g - c.hyst)).rank :=
      thresholdLevel_antitone c (by omega)
    rw [rawLevel_of_lt better, betterLevel_rank]
    omega
  · exact fun none => rawLevel_of_hyst_zero none held g

/-! ### Settlement -/

theorem ZoneRecord.settle_of_none {r : ZoneRecord} (h : r.pending = none) : r.settle = r := by
  rw [ZoneRecord.settle, h]

theorem ZoneRecord.settle_of_some {r : ZoneRecord} {p : PendingLevel} (h : r.pending = some p) :
    r.settle =
      if confirmCount r.active r.level p.level ≤ p.count then
        { r with
          pending :=
            if 2 ≤ confirmCount r.active r.level p.level then
              some { p with count := confirmCount r.active r.level p.level - 1 }
            else none }
      else r := by
  rw [ZoneRecord.settle, h]

/-- Settles O35: the rows of R44's table, one for each place of the count and the confirmation count. -/
theorem settlementOfThePendingCount : Obligations.SettlementOfThePendingCount := by
  unfold Obligations.SettlementOfThePendingCount
  refine fun r => ⟨ZoneRecord.settle_of_none, fun p present => ?_⟩
  rw [ZoneRecord.settle_of_some present]
  refine ⟨fun below => ?_, fun reached two => ?_, fun reached one => ?_⟩
  · exact if_neg (not_le.2 below)
  · rw [if_pos (by exact reached), if_pos (by exact two)]
    rfl
  · have notTwo : ¬2 ≤ confirmCount r.active r.level p.level := fun two => by
      rw [show confirmCount r.active r.level p.level = 1 from one] at two
      omega
    rw [if_pos (by exact reached), if_neg notTwo]

/-! ### An evaluation that goes on -/

/-- The entry a notice is posted as (R62). -/
def LevelNotice.entry (z : ZoneId) (held : Bool) (k : LevelNotice) : Content :=
  .level z k.old k.new held k.projected k.dpFloor k.reason k.g k.td

/-- An evaluation event of zone `z` that went on to judge its record as `judged`: the completion taken, the record
written with its latch, the entries of stage 1 followed by the LEVEL entry, if there is one, and the outputs told. -/
structure ZoneJudged (z : ZoneId) (rest : List Completion) (entries : List Content)
    (judged : ZoneRecord × Option LevelNotice) (s t : State) : Prop where
  frame : ChangesOnly [.handed, .zones, .queue, .outs] s t
  handed : t.handed = rest
  only : OnlyZone z s t
  record : t.zone z =
    if judged.2.any (fun k => k.latches judged.1.suppressed) then { judged.1 with latch := some t.queue.newest }
    else judged.1
  posts : Posts (entries ++ (judged.2.map (LevelNotice.entry z judged.1.suppressed)).toList) s t
  tells : Tells z
    ((s.zone z).effective ≠ (t.zone z).effective ∨ judged.2.any (fun k => k.latches judged.1.suppressed) = true) s t

section
variable {z : ZoneId} {rest : List Completion} {entries : List Content} {r : ZoneRecord} {k : LevelNotice} {s t : State}

/-- An evaluation without a LEVEL entry leaves the latch. -/
theorem ZoneJudged.silent (h : ZoneJudged z rest entries (r, none) s t) :
    t.zone z = r ∧ Posts entries s t ∧ Tells z ((s.zone z).effective ≠ (t.zone z).effective) s t := by
  obtain ⟨-, -, -, record, posts, tells⟩ := h
  exact ⟨by simpa using record, by simpa using posts, by simpa using tells⟩

/-- An evaluation with a LEVEL entry that sets no latch. -/
theorem ZoneJudged.unlatched (h : ZoneJudged z rest entries (r, some k) s t) (silent : k.latches r.suppressed = false) :
    t.zone z = r ∧ Posts (entries ++ [k.entry z r.suppressed]) s t ∧
      Tells z ((s.zone z).effective ≠ (t.zone z).effective) s t := by
  obtain ⟨-, -, -, record, posts, tells⟩ := h
  exact ⟨by simpa [silent] using record, posts, by simpa [silent] using tells⟩

/-- An evaluation with a LEVEL entry, which sets the latch under the condition `sets` (R74). -/
theorem ZoneJudged.posted (h : ZoneJudged z rest entries (r, some k) s t) {sets : Prop} [Decidable sets]
    (latches : k.latches r.suppressed = true ↔ sets) :
    t.zone z = { r with latch := if sets then some t.queue.newest else r.latch } ∧
      Posts (entries ++ [k.entry z r.suppressed]) s t ∧
      Tells z ((s.zone z).effective ≠ (t.zone z).effective ∨ sets) s t := by
  obtain ⟨-, -, -, record, posts, tells⟩ := h
  simp only [Option.any_some, latches] at record tells
  refine ⟨?_, posts, tells⟩
  rw [record]
  split_ifs <;> rfl

end

/-- Judging reads the lines and the time alone. -/
theorem State.judge_congr {s t : State} (lines : t.lines = s.lines) (tick : t.tick = s.tick) (c : Converted)
    (r : ZoneRecord) : t.judge c r = s.judge c r := by
  have line : t.line = s.line := funext (State.line_congr lines)
  have now : t.now = s.now := congrArg uptimeOf tick
  have nowMs : t.nowMs = s.nowMs := congrArg uptimeMsOf tick
  simp only [State.judge, State.usable, State.saturatedSurface, State.agedSurface, line, now, nowMs]

/-- An evaluation that goes on: stage 1, then the settled record judged, written and made known (R42, R43, R63). -/
theorem State.evaluate_judges {z : ZoneId} {n : LineId} {s : State} (c : Converted)
    (air : (stageOne z s).1.active.air = some n) (enabled : (stageOne z s).1.status ≠ .disabled) :
    ZoneJudged z s.handed (stageOne z s).2 (s.judge c (stageOne z s).1.settle) s (s.evaluate z n c) := by
  have written := s.transferPending_written z
  have goes : s.evaluate z n c =
      let judged := s.judge c (stageOne z s).1.settle
      let posted := ((s.transferPending z).setZone z judged.1).postLevelOpt z judged.2
      posted.1.inform z (s.zone z) posted.2 := by
    unfold State.evaluate
    simp only [written.record]
    rw [if_pos ⟨air, enabled⟩,
      State.judge_congr (written.frame .lines (by decide)) (written.frame .tick (by decide))]
  rw [goes]
  generalize s.judge c (stageOne z s).1.settle = judged
  obtain ⟨frame, only, record, posts, tells⟩ :=
    State.writeZone_spec z (s.zone z) judged.1 judged.2 (s.transferPending z)
  have whole := (written.frame.trans frame).mono (qs := [.handed, .zones, .queue, .outs]) (by decide)
  have posted := written.posts.trans posts (written.frame .tick (by decide))
  have told := tells.congr Iff.rfl (written.frame .outs (by decide))
  obtain ⟨r, notice⟩ := judged
  cases notice <;>
    exact ⟨whole, (frame .handed (by decide)).trans (written.frame .handed (by decide)),
      fun y hy => (only y hy).trans (written.only y hy), record, posted, told⟩

/-- The evaluation event of a zone that goes on past stages 1 and 2, with the entries of the one and the record of the
other (R41, R42, R138). -/
theorem execEvaluationEvent_judges {z : ZoneId} {n : LineId} {c : Completion} {rest : List Completion} {s : State}
    {entries : List Content} {r1 r : ZoneRecord} (notHeld : s.startup.resetHeld = false)
    (next : NextCompletion n c rest s) (evaluates : Evaluates z n s) (transferred : stageOne z s = (r1, entries))
    (settled : r1.settle = r) (air : r.active.air = some n) (enabled : r.status ≠ .disabled) :
    ∃ t, exec (.evaluationEvent n) s = .next t ∧ ZoneJudged z rest entries (s.judge c.result r) s t := by
  obtain ⟨active, status, -⟩ := r1.settle_keeps
  rw [← settled, active] at air
  rw [← settled, status] at enabled
  have taken : exec (.evaluationEvent n) s = .next ({ s with handed := rest }.takeCompletion c) :=
    execEvaluationEvent_some notHeld (takeHanded_eq_some.2 next)
  obtain ⟨-, -, -, -, rfl, -⟩ := next
  rw [State.takeCompletion_evaluates (s := { s with handed := rest }) evaluates] at taken
  have judges := State.evaluate_judges (s := { s with handed := rest }) c.result
    (show (stageOne z s).1.active.air = some c.line by rw [transferred]; exact air)
    (show (stageOne z s).1.status ≠ .disabled by rw [transferred]; exact enabled)
  rw [show stageOne z { s with handed := rest } = (r1, entries) from transferred, settled] at judges
  exact ⟨_, taken, ((s.hand_changesOnly rest).trans judges.frame).mono (by decide), judges.handed, judges.only,
    judges.record, judges.posts, judges.tells⟩

/-! ### Usable surfaces -/

/-- No surface is usable where every last good reading is too old (R46). -/
theorem State.usable_eq_nil_iff {c : ZoneConfig} {s : State} :
    s.usable c = [] ↔
      ∀ m ∈ c.surfaces, ∀ g, (s.line m).lastGood = some g → c.surfaceAgeS * 1000 < elapsedMs s.nowMs g.time := by
  rw [State.usable, List.filterMap_eq_nil_iff]
  refine forall₂_congr fun m _ => ?_
  rw [Option.map_eq_none_iff, Option.eq_none_iff_forall_ne_some]
  simp only [ne_eq, usableTemp_eq_some]
  constructor
  · intro none g last
    by_contra young
    exact none _ ⟨g, last, rfl, not_lt.1 young⟩
  · rintro old k ⟨g, last, -, young⟩
    exact absurd (old g last) (not_lt.2 young)

/-- The usable surfaces, from what R46 says of each line's temperature. -/
theorem State.usable_eq {c : ZoneConfig} {s : State} {temp : LineId → Option Int}
    (young : ∀ m k, temp m = some k ↔
      ∃ g, (s.line m).lastGood = some g ∧ g.reading.temp = k ∧ elapsedMs s.nowMs g.time ≤ c.surfaceAgeS * 1000) :
    s.usable c = c.surfaces.filterMap (fun m => (temp m).map (fun k => (m, k))) := by
  have same : ∀ m, usableTemp s.nowMs c.surfaceAgeS (s.line m) = temp m := fun m =>
    Option.ext fun k => usableTemp_eq_some.trans (young m k).symm
  simp only [State.usable, same]

/-! ### Failure -/

/-- The two failures of R45 and R46. -/
theorem State.judge_fails {c : Converted} {r : ZoneRecord} {why : UnknownReason} {s : State}
    (h : (c = .range ∧ why = .airBad) ∨ (c ≠ .range ∧ why = .noSurface ∧ s.usable r.active = [])) :
    s.judge c r = r.fail why := by
  rcases h with ⟨rfl, rfl⟩ | ⟨measured, rfl, none⟩
  · rfl
  · cases c with
    | good x => simp only [State.judge, none]
    | saturated x => simp only [State.judge, none]
    | range => exact absurd rfl measured

/-- Below the fail limit, and in UNKNOWN, a failure is counted and that is all (R47, R49). -/
theorem ZoneRecord.fail_counts {r : ZoneRecord}
    (h : r.status = .unknown ∨ min 7 (r.failCount + 1) < r.active.failLimit) (why : UnknownReason) :
    r.fail why = ({ r with failCount := min 7 (r.failCount + 1) }, none) := by
  unfold ZoneRecord.fail
  refine if_neg ?_
  rcases h with unknown | below
  · simp [unknown]
  · simp only [Bool.and_eq_true, decide_eq_true_eq, not_and, not_le]
    exact fun _ => below

/-- At the fail limit a STARTING or ACTIVE zone turns UNKNOWN (R48). -/
theorem ZoneRecord.fail_turnsUnknown {r : ZoneRecord} (known : r.status ≠ .unknown)
    (reached : r.active.failLimit ≤ min 7 (r.failCount + 1)) (why : UnknownReason) :
    r.fail why =
      (({ r with failCount := min 7 (r.failCount + 1) } : ZoneRecord).turnUnknown why, some (r.unknownNotice why)) := by
  unfold ZoneRecord.fail
  exact if_pos (by simp [known, reached])

/-- The condition that a zone in UNKNOWN is turned from (R48, R62). -/
theorem ZoneRecord.condition_of_ne_unknown {r : ZoneRecord} (known : r.status ≠ .unknown) :
    r.condition = if r.status = .starting then .starting else .level r.level := by
  rcases h : r.status <;> simp_all [ZoneRecord.condition]

/-- Settles O33: the record fails in both ways alike, and the fail limit decides whether it is counted only. -/
theorem failedEvaluationsCount : Obligations.FailedEvaluationsCount := by
  unfold Obligations.FailedEvaluationsCount
  intro n z c rest why s notHeld next evaluates
  generalize transferred : stageOne z s = stage
  cases stage with | mk r1 entries
  dsimp -zeta only
  intro r k air enabled failure
  obtain ⟨t, taken, judged⟩ := execEvaluationEvent_judges (r := r) notHeld next evaluates transferred rfl air enabled
  rw [State.judge_fails (by rwa [State.usable_eq_nil_iff])] at judged
  refine ⟨t, taken, judged.frame, judged.handed, judged.only, ?_⟩
  by_cases counts : r.status = .unknown ∨ k < r.active.failLimit
  · rw [ZoneRecord.fail_counts counts] at judged
    obtain ⟨record, posts, tells⟩ := judged.silent
    exact ⟨tells, fun _ => ⟨record, posts⟩, fun known reached => absurd counts (not_or.2 ⟨known, not_lt.2 reached⟩)⟩
  · obtain ⟨known, reached⟩ := not_or.1 counts
    rw [ZoneRecord.fail_turnsUnknown known (not_lt.1 reached)] at judged
    obtain ⟨record, posts, tells⟩ := judged.unlatched (ZoneRecord.unknownNotice_latches ..)
    rw [LevelNotice.entry, ZoneRecord.suppressed_eq, ZoneRecord.unknownNotice,
      ZoneRecord.condition_of_ne_unknown known] at posts
    exact ⟨tells, fun counted => absurd counted counts, fun _ _ => ⟨record, posts⟩⟩

/-! ### Success -/

/-- A margin appended: the oldest of four leaves first (R50). -/
theorem appendMargin_eq (h : List Int) (m : Int) :
    appendMargin h m = (if h.length < 4 then h else h.drop 1) ++ [m] := by
  unfold appendMargin
  split_ifs <;> rfl

/-- An evaluation with a measured air reading and a usable surface succeeds, with the flags of R46 (R46, R50). -/
theorem State.judge_succeeds {c : Converted} {r : ZoneRecord} {x : Reading} {u : LineId × Int}
    {us : List (LineId × Int)} {s : State} (measured : c = .good x ∨ c = .saturated x)
    (usable : s.usable r.active = u :: us) :
    let res := condensation x.temp x.rh u us r.history r.active.lead
    s.judge c r =
      (r.recordSuccess s.now x.temp x.rh
        (decide (c = .saturated x ∨ ∃ v ∈ u :: us, (s.line v.1).lastQuality = .saturated))
        (decide (∃ v ∈ u :: us, (s.line v.1).fault = true)) res).decideLevel res := by
  intro res
  have saturated : s.saturatedSurface (u :: us) = decide (∃ v ∈ u :: us, (s.line v.1).lastQuality = .saturated) := by
    rw [State.saturatedSurface, Bool.eq_iff_iff, List.any_eq_true, decide_eq_true_eq]
    simp only [decide_eq_true_eq]
  have aged : s.agedSurface (u :: us) = decide (∃ v ∈ u :: us, (s.line v.1).fault = true) := by
    rw [State.agedSurface, Bool.eq_iff_iff, List.any_eq_true, decide_eq_true_eq]
  rcases measured with rfl | rfl
  · simp only [State.judge, usable, saturated, aged, reduceCtorEq, false_or, Bool.false_or, res]
  · simp only [State.judge, usable, aged, true_or, decide_true, Bool.true_or, res]

/-- The notice of a level that an evaluation decided (R62). -/
def MarginResult.notice (x : MarginResult) (old : Condition) (new : Level) : LevelNotice :=
  { old := old, new := .level new, projected := x.projected, dpFloor := x.dpFloor, reason := none, g := x.g, td := x.td }

/-- The entry of a zone that leaves STARTING or UNKNOWN latches at WARN and WET, unless HELD (R74). -/
theorem MarginResult.notice_latches_of_direct {old : Condition} (h : old = .starting ∨ old = .unknown)
    (x : MarginResult) (new : Level) (held : Bool) :
    (x.notice old new).latches held = true ↔ 2 ≤ new.rank ∧ held = false := by
  have warn : Level.warn.rank = 2 := rfl
  rcases h with rfl | rfl <;> simp [LevelNotice.latches, MarginResult.notice, warn, and_comm]

/-- The entry of a change of level latches at WARN and WET where the level worsens, unless HELD (R74). -/
theorem MarginResult.notice_latches_of_level (x : MarginResult) (old new : Level) (held : Bool) :
    (x.notice (.level old) new).latches held = true ↔ 2 ≤ new.rank ∧ old.rank < new.rank ∧ held = false := by
  have warn : Level.warn.rank = 2 := rfl
  simp only [LevelNotice.latches, MarginResult.notice, warn, Bool.and_eq_true, Bool.not_eq_true', decide_eq_true_eq]
  tauto

section
variable {r : ZoneRecord} {x : MarginResult}

/-- The direct exit from STARTING or UNKNOWN (R53). -/
theorem ZoneRecord.decideLevel_direct (h : r.status ≠ .active) :
    r.decideLevel x =
      ({ r with level := thresholdLevel r.active x.g, status := .active, pending := none },
        some (x.notice r.condition (thresholdLevel r.active x.g))) := if_neg h

theorem ZoneRecord.decideLevel_active (h : r.status = .active) :
    r.decideLevel x =
      ((r.confirm x.g).1,
        if (r.confirm x.g).2 then some (x.notice (.level r.level) (r.confirm x.g).1.level) else none) := by
  have condition : r.condition = .level r.level := by rw [ZoneRecord.condition, h]
  rw [← condition]
  exact if_pos h

/-- A raw level equal to the level ends the run (R54). -/
theorem ZoneRecord.decideLevel_ends (h : r.status = .active) (same : rawLevel r.active r.level x.g = r.level) :
    r.decideLevel x = ({ r with pending := none }, none) := by
  rw [r.decideLevel_active h, ZoneRecord.confirm]
  simp only [if_pos same]
  rfl

/-- A run below its confirmation count goes on (R54). -/
theorem ZoneRecord.decideLevel_counts (h : r.status = .active) (differs : rawLevel r.active r.level x.g ≠ r.level)
    (below : (runAfter (rawLevel r.active r.level x.g) r.pending).count <
      confirmCount r.active r.level (rawLevel r.active r.level x.g)) :
    r.decideLevel x = ({ r with pending := some (runAfter (rawLevel r.active r.level x.g) r.pending) }, none) := by
  rw [r.decideLevel_active h, ZoneRecord.confirm]
  simp only [if_neg differs, if_neg (not_le.2 below)]
  rfl

/-- A run that reaches its confirmation count changes the level (R55). -/
theorem ZoneRecord.decideLevel_changes (h : r.status = .active) (differs : rawLevel r.active r.level x.g ≠ r.level)
    (reached : confirmCount r.active r.level (rawLevel r.active r.level x.g) ≤
      (runAfter (rawLevel r.active r.level x.g) r.pending).count) :
    r.decideLevel x =
      ({ r with level := rawLevel r.active r.level x.g, pending := none },
        some (x.notice (.level r.level) (rawLevel r.active r.level x.g))) := by
  rw [r.decideLevel_active h, ZoneRecord.confirm]
  simp only [if_neg differs, if_pos reached]
  rfl

/-- The condition that a zone leaves directly (R53, R62). -/
theorem ZoneRecord.condition_of_direct (enabled : r.status ≠ .disabled) (h : r.status ≠ .active) :
    r.condition = if r.status = .starting then .starting else .unknown := by
  rcases status : r.status <;> simp_all [ZoneRecord.condition]

end

/-- R54's rows give the run after a raw level that differs from the level. -/
theorem runAfter_eq {raw : Level} {p : Option PendingLevel} {run : PendingLevel} (first : p = none → run = ⟨raw, 1⟩)
    (goesOn : ∀ q, p = some q → q.level = raw → run = ⟨raw, q.count + 1⟩)
    (again : ∀ q, p = some q → q.level ≠ raw → run = ⟨raw, 1⟩) : runAfter raw p = run := by
  rcases p with - | q
  · exact (first rfl).symm
  · by_cases same : q.level = raw
    · rw [goesOn q rfl same, runAfter, if_pos same]
    · rw [again q rfl same, runAfter, if_neg same]

/-- Settles O34: the record of success, then the level as each status and each row of R54 decides it. -/
theorem successfulEvaluationsDecideTheLevel : Obligations.SuccessfulEvaluationsDecideTheLevel := by
  unfold Obligations.SuccessfulEvaluationsDecideTheLevel
  intro n z c rest x u us s temp run notHeld next evaluates
  generalize transferred : stageOne z s = stage
  cases stage with | mk r1 entries
  dsimp -zeta only
  intro r res success held entry latched air enabled measured young surfaces
  obtain ⟨t, taken, judged⟩ := execEvaluationEvent_judges (r := r) notHeld next evaluates transferred rfl air enabled
  have succeeds : s.judge c.result r = success.decideLevel res := by
    rw [State.judge_succeeds measured ((State.usable_eq young).trans surfaces), ZoneRecord.recordSuccess,
      appendMargin_eq]
    rfl
  rw [succeeds] at judged
  refine ⟨t, taken, judged.frame, judged.handed, judged.only, fun direct => ?_, fun active =>
    ⟨fun same => ?_, fun differs runs below => ?_, fun differs runs reached => ?_⟩⟩
  · rw [success.decideLevel_direct direct] at judged
    have left : success.condition = if r.status = .starting then .starting else .unknown :=
      success.condition_of_direct enabled direct
    rw [left] at judged
    have posted := judged.posted (res.notice_latches_of_direct (ite_eq_or_eq ..) _ _)
    rw [LevelNotice.entry, ZoneRecord.suppressed_eq] at posted
    exact posted
  · rw [success.decideLevel_ends active same] at judged
    exact judged.silent
  · obtain ⟨first, goesOn, again⟩ := runs
    obtain rfl := runAfter_eq first goesOn again
    rw [success.decideLevel_counts active differs below] at judged
    exact judged.silent
  · obtain ⟨first, goesOn, again⟩ := runs
    obtain rfl := runAfter_eq first goesOn again
    rw [success.decideLevel_changes active differs reached] at judged
    have posted := judged.posted (res.notice_latches_of_level ..)
    rw [LevelNotice.entry, ZoneRecord.suppressed_eq] at posted
    exact posted

end Sys2Proof.Machine
end

/-! ## Effective levels, holds and alarm latches -/

section
/-!
PROOFS. What the effective level is in each status under each hold, and what sets a hold, ends it and clears a latch
(R64, R67 to R70, R76).
-/

namespace Sys2Proof.Machine

/-! ### The effective level -/

/-- The worse of two levels is one of them and no better than either. -/
theorem worseLevel_spec (x y : Level) :
    (worseLevel x y = x ∨ worseLevel x y = y) ∧ x.rank ≤ (worseLevel x y).rank ∧ y.rank ≤ (worseLevel x y).rank := by
  unfold worseLevel
  split_ifs with worse
  · exact ⟨.inr rfl, worse, le_rfl⟩
  · exact ⟨.inl rfl, le_rfl, (not_le.1 worse).le⟩

section
variable {r : ZoneRecord}

theorem ZoneRecord.base_eq_some {base : Level}
    (h : (r.status = .starting ∧ base = r.active.failLevel) ∨ (r.status = .active ∧ base = r.level) ∨
      (r.status = .unknown ∧ base = r.active.failLevel)) : r.base = some base := by
  rcases h with ⟨status, rfl⟩ | ⟨status, rfl⟩ | ⟨status, rfl⟩ <;> rw [ZoneRecord.base, status]

theorem ZoneRecord.effective_of_disabled (status : r.status = .disabled) : r.effective = none := by
  rw [ZoneRecord.effective, ZoneRecord.base, status]

theorem ZoneRecord.effective_without_hold {base : Level} (formed : r.base = some base) (absent : r.hold = none) :
    r.effective = some base := by
  rw [ZoneRecord.effective, formed, absent]

theorem ZoneRecord.effective_of_suppress {base : Level} {h : Hold} (formed : r.base = some base)
    (held : r.hold = some h) (mode : h.mode = .suppress) : r.effective = some .clear := by
  simp only [ZoneRecord.effective, formed, held, mode]

theorem ZoneRecord.effective_of_assert {base x : Level} {h : Hold} (formed : r.base = some base)
    (held : r.hold = some h) (mode : h.mode = .assert x) : r.effective = some (worseLevel base x) := by
  simp only [ZoneRecord.effective, formed, held, mode]

theorem zoneDemands_of_no_level (h : r.effective = none) (trigger : Level) : zoneDemands trigger r = false := by
  rw [zoneDemands, h]

/-- The effective level stands at offset 10 of ZONE GET's STATE part (R171). -/
theorem zoneStateBody_level (now : Word) (z : ZoneId) (r : ZoneRecord) :
    (zoneStateBody now z r).getD 10 0 = levelByteOpt r.effective := by
  unfold zoneStateBody
  cases r.pending <;> cases r.deadline <;> rfl

end

/-- Settles O27: the base of each status, then each hold on it. -/
theorem effectiveLevelFollowsStatusAndHold : Obligations.EffectiveLevelFollowsStatusAndHold := by
  unfold Obligations.EffectiveLevelFollowsStatusAndHold
  refine fun r => ⟨fun disabled => ?_, fun base row => ?_⟩
  · have level : r.effective = none := r.effective_of_disabled disabled
    exact ⟨level, zoneDemands_of_no_level level, fun now z => by rw [zoneStateBody_level, level]; rfl⟩
  · have formed := r.base_eq_some row
    exact ⟨r.effective_without_hold formed, fun h held mode => r.effective_of_suppress formed held mode,
      fun h x held mode => ⟨_, r.effective_of_assert formed held mode, worseLevel_spec base x⟩⟩

/-! ### Holds and latches -/

/-- A request whose owner makes an event at a zone: the event stands whole, with the response on its link. -/
theorem serveRequest_informed {l : Link} {i : Instr} {k : RequestKind} {act : State → Answer} {a : Answer} {z : ZoneId}
    {r : ZoneRecord} {cs : List Content} {told : Prop} {s : State} (takes : Takes l i s) (answers : act s = a)
    (informed : ZoneInformed z r cs told s a.state) :
    ∃ t, serveRequest l k i act s = .next t ∧ ChangesOnly [.zones, .queue, .outs, .links] s t ∧ OnlyZone z s t ∧
      t.zone z = r ∧ Posts cs s t ∧ Tells z told s t ∧ Replies l k.code a.status a.body s t := by
  obtain ⟨t, served, responds, replies⟩ := serveRequest_acted takes k answers (informed.frame .links (by decide))
  obtain ⟨frame, only, record, posts, tells⟩ := informed.answered responds
  exact ⟨t, served, frame, only, record, posts, tells, replies⟩

/-- The codes of mode and level that R67 step 2 lets past (R168). -/
theorem holdModeOf_eq_some {mode level : Byte} {m : HoldMode}
    (h : (mode = 1 ∧ level = 0xFF ∧ m = .suppress) ∨
      (mode = 2 ∧ ((level = 1 ∧ m = .assert .watch) ∨ (level = 2 ∧ m = .assert .warn) ∨
        (level = 3 ∧ m = .assert .wet)))) : holdModeOf mode level = some m := by
  rcases h with ⟨rfl, rfl, rfl⟩ | ⟨rfl, ⟨rfl, rfl⟩ | ⟨rfl, rfl⟩ | ⟨rfl, rfl⟩⟩ <;> rfl

theorem minutesOf_eq_some {m : Half} (least : 1 ≤ m.toNat) (most : m.toNat ≤ 1440) : minutesOf m = some m.toNat :=
  if_pos ((withinNat_iff ..).2 ⟨least, most⟩)

section
variable {num : Byte} {z : ZoneId} {s : State}

/-- A ZONE HOLD past its checks (R67, R68). -/
theorem answerZoneHold_sets {mode level : Byte} {minutes : Half} {m : HoldMode} {k : Nat}
    (zone : zoneOf num = some z) (enabled : (s.zone z).status ≠ .disabled) (readMode : holdModeOf mode level = some m)
    (readMinutes : minutesOf minutes = some k) (l : Link) :
    answerZoneHold l num mode level minutes s =
      { state := s.setHold l z m k, status := .done,
        body := [flagByte (s.zone z).hold.isSome, linkByte ((s.zone z).hold.map (fun h => h.link))] } := by
  simp only [answerZoneHold, zone, readMode, readMinutes, if_neg enabled]

theorem answerZoneRelease_none (zone : zoneOf num = some z) (absent : (s.zone z).hold = none) (l : Link) :
    answerZoneRelease l num s = refuse s .nothing := by
  simp only [answerZoneRelease, zone, absent]

theorem answerZoneRelease_some {h : Hold} (zone : zoneOf num = some z) (held : (s.zone z).hold = some h) (l : Link) :
    answerZoneRelease l num s =
      { state := s.endHold z .released l, status := .done,
        body := [byteOf h.mode.code, levelByteOpt h.mode.level?, linkByte (some h.link)] } := by
  simp only [answerZoneRelease, zone, held]

/-- HOLD_EXPIRY ends a hold whose second is reached (R70). -/
theorem execHoldExpiry_due {h : Hold} (notHeld : s.startup.resetHeld = false) (held : (s.zone z).hold = some h)
    (past : (s.now - h.expiry).toNat < 2 ^ 31) : execHoldExpiry z s = .next (s.endHold z .expired h.link) := by
  simp only [execHoldExpiry, State.unlessHeld_of _ _ notHeld, held]
  rw [if_pos (by simpa [reached] using past)]

/-- HOLD_EXPIRY without a hold, or before its second, does nothing (R70; notes/assumptions/28.md). -/
theorem execHoldExpiry_early (notHeld : s.startup.resetHeld = false)
    (early : (s.zone z).hold = none ∨ ∃ h, (s.zone z).hold = some h ∧ 2 ^ 31 ≤ (s.now - h.expiry).toNat) :
    execHoldExpiry z s = .next s := by
  rcases early with absent | ⟨h, held, ahead⟩
  · simp only [execHoldExpiry, State.unlessHeld_of _ _ notHeld, absent]
  · simp only [execHoldExpiry, State.unlessHeld_of _ _ notHeld, held]
    rw [if_neg (by simpa [reached] using ahead)]

section
variable {seq : Half} (zone : zoneOf num = some z) (positive : seq ≠ 0) (l : Link)
include zone positive

theorem answerZoneAck_none (absent : (s.zone z).latch = none) : answerZoneAck l num seq s = refuse s .nothing := by
  simp only [answerZoneAck, zone, if_neg positive, absent]

theorem answerZoneAck_stale {n : Nat} (latched : (s.zone z).latch = some n) (other : seq.toNat ≠ n) :
    answerZoneAck l num seq s = { state := s, status := .stale, body := halfOf n } := by
  simp only [answerZoneAck, zone, if_neg positive, latched, if_neg other]

theorem answerZoneAck_clears (latched : (s.zone z).latch = some seq.toNat) :
    answerZoneAck l num seq s = { state := s.clearLatch l z seq.toNat, status := .done, body := [] } := by
  simp only [answerZoneAck, zone, if_neg positive, latched, if_true]

end

end

/-- Settles O29: the operands read, then the hold set in one event at the zone. -/
theorem zoneHoldSetsTheHold : Obligations.ZoneHoldSetsTheHold := by
  unfold Obligations.ZoneHoldSetsTheHold
  intro l num mode level minutes s z m takes zone enabled codes least most
  have answers := answerZoneHold_sets zone enabled (holdModeOf_eq_some codes) (minutesOf_eq_some least most) l
  obtain ⟨t, served, frame, only, record, posts, tells, replies⟩ :=
    serveRequest_informed (k := .zoneHold) takes answers (s.setHold_informed l z m minutes.toNat)
  exact ⟨t, served, frame, only, record, posts, by rwa [record], replies⟩

/-- Settles O30: the two answers of ZONE RELEASE, then the expiry before and after its second. -/
theorem holdsEndByReleaseAndExpiry : Obligations.HoldsEndByReleaseAndExpiry := by
  unfold Obligations.HoldsEndByReleaseAndExpiry
  refine fun z s => ⟨fun l num takes zone => ⟨fun absent => ?_, fun h held => ?_⟩, fun notHeld =>
    ⟨fun h held past => ?_, execHoldExpiry_early notHeld⟩⟩
  · exact serveRequest_refused takes .zoneRelease _ _ _ (answerZoneRelease_none zone absent l)
  · obtain ⟨t, served, frame, only, record, posts, tells, replies⟩ :=
      serveRequest_informed (k := .zoneRelease) takes (answerZoneRelease_some zone held l)
        (s.endHold_informed z .released l)
    exact ⟨t, served, ⟨frame, only, record, posts, by rwa [record]⟩, replies⟩
  · have ended := s.endHold_informed z .expired h.link
    exact ⟨_, execHoldExpiry_due notHeld held past, ended.frame, ended.only, ended.record, ended.posts,
      by rw [ended.record]; exact ended.tells⟩

/-- Settles O31: the three rows of R76's table, the last by the latch cleared in one event at the zone. -/
theorem zoneAckClearsTheLatch : Obligations.ZoneAckClearsTheLatch := by
  unfold Obligations.ZoneAckClearsTheLatch
  refine fun l num seq s z takes zone positive => ⟨fun absent => ?_, fun n latched other => ?_, fun latched => ?_⟩
  · exact serveRequest_refused takes .zoneAck _ _ _ (answerZoneAck_none zone positive l absent)
  · exact serveRequest_refused takes .zoneAck _ _ _ (answerZoneAck_stale zone positive l latched other)
  · exact serveRequest_informed (k := .zoneAck) takes (answerZoneAck_clears zone positive l latched)
      (s.clearLatch_informed l z seq.toNat)

end Sys2Proof.Machine
end

/-! ## The ring and its cursor records -/

section
/-!
SUPPORT. Sequence numbers and their distances, the ring as a run of consecutive seqs, and what posting, recounting and
refreshing keep of a cursor record's order (R81, R85 to R87, R90, R94, R96 to R99).
-/

namespace Sys2Proof.Machine

/-! ### Sequence numbers -/

section
variable {n s t : Nat}

theorem nextSeq_range (h : n ≤ 65535) : 1 ≤ nextSeq n ∧ nextSeq n ≤ 65535 := by
  unfold nextSeq
  split_ifs <;> omega

theorem seqDistance_self (n : Nat) : seqDistance n n = 0 := by
  simp [seqDistance]

/-- One posting more is one more between a seq and the newest, as far as the numbers reach (R94). -/
theorem seqDistance_posted (newest : 1 ≤ n ∧ n ≤ 65535) (seq : 1 ≤ s ∧ s ≤ 65535) (near : seqDistance n s < 65534) :
    seqDistance (nextSeq n) s = seqDistance n s + 1 := by
  unfold seqDistance nextSeq at *
  split_ifs at * <;> omega

/-- A seq lies one further behind the newest than the seq after it. -/
theorem seqDistance_before (newest : 1 ≤ n ∧ n ≤ 65535) (seq : 1 ≤ s ∧ s ≤ 65535)
    (near : seqDistance n (nextSeq s) < 65534) : seqDistance n s = seqDistance n (nextSeq s) + 1 := by
  unfold seqDistance nextSeq at *
  split_ifs at * <;> omega

/-- The seq that the next posting takes is the furthest behind the newest of all. -/
theorem seqDistance_next (n : Nat) : seqDistance n (nextSeq n) = 65534 := by
  unfold seqDistance nextSeq
  split_ifs <;> omega

/-- Over 1..65535 the distance behind the newest tells a seq (R94). -/
theorem eq_of_seqDistance_eq (seq : 1 ≤ s ∧ s ≤ 65535) (other : 1 ≤ t ∧ t ≤ 65535)
    (h : seqDistance n s = seqDistance n t) (newest : n ≤ 65535) : s = t := by
  unfold seqDistance at h
  split_ifs at h <;> omega

end

/-- Over 1..65535 the distance is how many postings lie from a seq to the newest (R94). -/
theorem seqDistance_iterate {s d : Nat} (seq : 1 ≤ s ∧ s ≤ 65535) (near : d ≤ 65534) :
    seqDistance (nextSeq^[d] s) s = d := by
  have posted : (1 ≤ nextSeq^[d] s ∧ nextSeq^[d] s ≤ 65535) ∧ seqDistance (nextSeq^[d] s) s = d := by
    induction d with
    | zero => exact ⟨seq, seqDistance_self s⟩
    | succ d ih =>
      obtain ⟨range, distance⟩ := ih (by omega)
      rw [Function.iterate_succ_apply']
      refine ⟨nextSeq_range range.2, ?_⟩
      rw [seqDistance_posted range seq (by omega), distance]
  exact posted.2

/-! ### The ring -/

/-- One entry follows the other in the ring (R81). -/
def Follows (e f : Entry) : Prop := f.seq = nextSeq e.seq

theorem consecutive_iff_isChain (ring : List Entry) : Consecutive ring ↔ ring.IsChain Follows := by
  induction ring with
  | nil => simp [Consecutive]
  | cons e ring ih =>
    cases ring with
    | nil => simp [Consecutive]
    | cons f ring => rw [Consecutive, ih, List.isChain_cons_cons, Follows]

section
variable {q : Queue}

theorem Queue.RingOk.newest_range (h : q.RingOk) : 1 ≤ q.newest ∧ q.newest ≤ 65535 := by
  obtain ⟨-, -, range, -, last⟩ := h
  obtain ⟨e, last, newest⟩ := Option.map_eq_some_iff.1 last
  exact newest ▸ range e (List.mem_of_getLast? last)

/-- An entry's distance behind the newest is the number of entries after it. -/
theorem Queue.RingOk.distance (h : q.RingOk) {before after : List Entry} {e : Entry}
    (held : q.ring = before ++ e :: after) : seqDistance q.newest e.seq = after.length := by
  have newest := h.newest_range
  obtain ⟨-, most, range, consecutive, last⟩ := h
  rw [consecutive_iff_isChain] at consecutive
  rw [held] at most range consecutive last
  induction after generalizing before e with
  | nil =>
    have same : e.seq = q.newest := by simpa using last
    rw [same, seqDistance_self, List.length_nil]
  | cons f after ih =>
    have rest := ih (before := before ++ [e]) (e := f) (by simpa using held) (by simpa using most)
      (by simpa using range) (by simpa using consecutive) (by simpa using last)
    have follows : f.seq = nextSeq e.seq := (List.isChain_append_cons_cons.1 consecutive).2.1
    have few : after.length < 65534 := by
      simp only [List.length_append, List.length_cons] at most
      omega
    rw [follows] at rest
    rw [seqDistance_before newest (range e (by simp)) (by omega), rest, List.length_cons]

/-- No two entries of the ring carry the same seq. -/
theorem Queue.RingOk.seq_ne_of_before (h : q.RingOk) {before after : List Entry} {e : Entry}
    (held : q.ring = before ++ e :: after) : ∀ d ∈ before, d.seq ≠ e.seq := by
  intro d hd same
  obtain ⟨front, back, rfl⟩ := List.append_of_mem hd
  have first := h.distance (before := front) (after := back ++ e :: after) (e := d) (by simpa using held)
  have second := h.distance held
  rw [same, second] at first
  simp only [List.length_append, List.length_cons] at first
  omega

/-- No entry of the ring carries the seq that the next posting takes. -/
theorem Queue.RingOk.seq_ne_next (h : q.RingOk) : ∀ e ∈ q.ring, e.seq ≠ nextSeq q.newest := by
  intro e he same
  obtain ⟨front, back, held⟩ := List.append_of_mem he
  have near := h.distance held
  obtain ⟨-, most, -⟩ := id h
  rw [same, seqDistance_next] at near
  rw [held, List.length_append, List.length_cons] at most
  omega

/-- A seq no further behind the newest than the ring is long is held (R94). -/
theorem Queue.RingOk.held_of_distance (h : q.RingOk) {s : Nat} (seq : 1 ≤ s ∧ s ≤ 65535)
    (near : seqDistance q.newest s < q.ring.length) : ∃ e ∈ q.ring, e.seq = s := by
  have place : q.ring.length - 1 - seqDistance q.newest s < q.ring.length := by omega
  refine ⟨q.ring[q.ring.length - 1 - seqDistance q.newest s], List.getElem_mem place, ?_⟩
  have distance := h.distance (e := q.ring[q.ring.length - 1 - seqDistance q.newest s])
    ((List.take_append_drop _ _).symm.trans (by rw [List.drop_eq_getElem_cons place]))
  obtain ⟨-, -, range, -, -⟩ := id h
  refine eq_of_seqDistance_eq (range _ (List.getElem_mem place)) seq ?_ h.newest_range.2
  rw [distance, List.length_drop]
  omega

/-! ### The entries from a cursor on -/

theorem fromCursor_eq_nil {ring : List Entry} {cursor : Nat} (h : ∀ e ∈ ring, e.seq ≠ cursor) :
    fromCursor ring cursor = [] := by
  simpa [fromCursor] using h

theorem fromCursor_head {e : Entry} {rest : List Entry} : fromCursor (e :: rest) e.seq = e :: rest :=
  fromCursor_append (before := []) rfl (by simp)

theorem fromCursor_tail {e : Entry} {rest : List Entry} {cursor : Nat} (h : cursor ≠ e.seq) :
    fromCursor (e :: rest) cursor = fromCursor rest cursor := by
  simp [fromCursor, Ne.symm h]

/-- A cursor placed on what a fetch leaves has just that ahead of it (R92). -/
theorem Queue.RingOk.fromCursor_cursorAt (h : q.RingOk) {before after : List Entry} (held : q.ring = before ++ after) :
    fromCursor q.ring (cursorAt q.newest after) = after := by
  cases after with
  | nil => exact fromCursor_eq_nil h.seq_ne_next
  | cons e after =>
    rw [held]
    exact fromCursor_append rfl (h.seq_ne_of_before held)

/-- An entry appended is ahead of every cursor in place: the last of those it has ahead. -/
theorem fromCursor_appended {ring : List Entry} {e : Entry} {cursor : Nat}
    (place : (∃ d ∈ ring, d.seq = cursor) ∨ cursor = e.seq) :
    fromCursor (ring ++ [e]) cursor = fromCursor ring cursor ++ [e] := by
  by_cases held : ∃ d ∈ ring, d.seq = cursor
  · have front : fromCursor ring cursor ≠ [] := by simpa [fromCursor] using held
    simp only [fromCursor, List.dropWhile_append, List.isEmpty_iff] at front ⊢
    rw [if_neg front]
  · have absent : ∀ d ∈ ring, d.seq ≠ cursor := by simpa using held
    obtain rfl := place.resolve_left held
    rw [fromCursor_eq_nil absent, List.nil_append]
    exact fromCursor_append rfl absent

end

/-! ### The count of a cursor record -/

/-- The cursor stands on a held entry or one past the newest (R87). -/
def InPlace (q : Queue) (cursor : Nat) : Prop := (∃ e ∈ q.ring, e.seq = cursor) ∨ cursor = nextSeq q.newest

section
variable {q : Queue} {r : CursorRecord} {n : Nat}

/-- A backlog written is in order where it is the count, with `lagging` following it (R90, R99). -/
theorem CursorRecord.setBacklog_countOk (place : InPlace q r.cursor)
    (counted : n = countMatching q.ring r.settings.filter r.cursor) (missed : r.missed ≤ 255)
    (gather : r.settings.gatherMs ≤ 2000) : (r.setBacklog n).CountOk q := by
  obtain ⟨above, below, -⟩ := r.setBacklog_lagging n
  exact ⟨place, counted, missed, gather, above, below⟩

/-- A backlog counted afresh is in order wherever the cursor is placed (R93 to R95). -/
theorem CursorRecord.recount_countOk (place : InPlace q r.cursor) (missed : r.missed ≤ 255)
    (gather : r.settings.gatherMs ≤ 2000) : (r.recount q.ring).CountOk q :=
  setBacklog_countOk place rfl missed gather

/-- Attention and timer are no part of the count. -/
theorem CursorRecord.CountOk.refresh (h : r.CountOk q) (tick : Nat) (ring : List Entry) :
    (r.refresh tick ring).CountOk q := by
  obtain ⟨cursor, backlog, missed, lagging, settings⟩ := r.refresh_fields tick ring
  unfold CursorRecord.CountOk at *
  rwa [cursor, backlog, missed, lagging, settings]

/-- An entry posted is counted by every record that matches it (R85, R90). -/
theorem CursorRecord.CountOk.count {q' : Queue} {e : Entry} (h : r.CountOk q) (seq : e.seq = nextSeq q.newest)
    (ring : q'.ring = q.ring ++ [e]) : (r.count e).CountOk q' := by
  obtain ⟨place, counted, missed, gather, above, below⟩ := h
  rw [← seq] at place
  have placed : InPlace q' r.cursor := by
    refine .inl ?_
    rw [ring]
    rcases place with ⟨d, held, at_d⟩ | at_e
    · exact ⟨d, List.mem_append_left _ held, at_d⟩
    · exact ⟨e, by simp, at_e.symm⟩
  have count : countMatching q'.ring r.settings.filter r.cursor =
      r.backlog + if matchesFilter r.settings.filter e.content then 1 else 0 := by
    rw [counted, ring]
    simp only [countMatching, fromCursor_appended place, List.countP_append, List.countP_singleton]
  unfold CursorRecord.count
  split_ifs at count ⊢
  · exact setBacklog_countOk placed count.symm missed gather
  · exact ⟨placed, count.symm, missed, gather, above, below⟩

/-- The oldest entry discarded is counted out of every backlog that held it, and its cursor moves on (R86). -/
theorem CursorRecord.CountOk.discard {q' : Queue} {d f : Entry} {rest : List Entry} (h : r.CountOk q)
    (oldest : q.ring = d :: f :: rest) (follows : f.seq = nextSeq d.seq) (ring : q'.ring = f :: rest)
    (newest : q'.newest = q.newest) : (r.discard d).CountOk q' := by
  obtain ⟨place, counted, missed, gather, above, below⟩ := h
  rw [oldest] at place counted
  by_cases at_d : r.cursor = d.seq
  · have placed : InPlace q' (nextSeq d.seq) := .inl ⟨f, by simp [ring], follows⟩
    have ahead : fromCursor q'.ring (nextSeq d.seq) = f :: rest := by
      rw [ring, ← follows]
      exact fromCursor_head
    rw [at_d, countMatching, fromCursor_head, List.countP_cons] at counted
    simp only [CursorRecord.discard, if_pos at_d]
    split_ifs at counted ⊢ with hit
    · refine setBacklog_countOk (r := { r with cursor := nextSeq d.seq, missed := min 255 (r.missed + 1) })
        (n := r.backlog - 1) placed ?_ (Nat.min_le_left ..) gather
      rw [countMatching, ahead, counted, Nat.add_sub_cancel]
    · exact ⟨placed, by rw [countMatching, ahead]; exact counted, missed, gather, above, below⟩
  · have placed : InPlace q' r.cursor := by
      rcases place with ⟨e, held, at_e⟩ | past
      · refine .inl ⟨e, ?_, at_e⟩
        rw [ring]
        exact (List.mem_cons.1 held).resolve_left fun same => at_d (by rw [← at_e, same])
      · exact .inr (newest ▸ past)
    rw [countMatching, fromCursor_tail at_d, ← ring] at counted
    simp only [CursorRecord.discard, if_neg at_d]
    exact ⟨placed, counted, missed, gather, above, below⟩

/-- An urgent match ahead is a backlog (R90, R97). -/
theorem CursorRecord.CountOk.backlog_of_urgent (h : r.CountOk q) (urgent : urgentAhead q.ring r = true) :
    1 ≤ r.backlog := by
  obtain ⟨-, counted, -⟩ := h
  obtain ⟨e, ahead, -, hit⟩ := (urgentAhead_iff ..).1 urgent
  rw [counted, countMatching]
  exact List.countP_pos_iff.2 ⟨e, ahead, hit⟩

/-- With a backlog, either attention is asserted or the timer runs, and not both (R96, R97). -/
theorem AttentionAfter.one_at_work {tick : Nat} {ring : List Entry} {asserted : Bool} {timer : Option Nat}
    (h : AttentionAfter tick ring asserted timer r) (backlog : 1 ≤ r.backlog) :
    (r.attention = true ∧ r.gatherAt = none) ∨ (r.attention = false ∧ r.gatherAt.isSome = true) := by
  unfold AttentionAfter at h
  obtain ⟨-, asserts, waits⟩ := h
  by_cases now : asserted = true ∨ (16 ≤ r.backlog ∨ r.lagging = true ∨
      ∃ e ∈ fromCursor ring r.cursor, Urgent e.content ∧ matchesFilter r.settings.filter e.content = true)
  · exact .inl (asserts backlog now)
  · rw [not_or, Bool.not_eq_true] at now
    obtain ⟨runs, atOnce, starts⟩ := waits backlog now.1 now.2
    rcases timer with - | due
    · rcases Nat.eq_zero_or_pos r.settings.gatherMs with zero | positive
      · exact .inl (atOnce rfl zero)
      · exact .inr ((starts rfl positive).imp id fun at_ => by simp [at_])
    · exact .inr ((runs due rfl).imp id fun at_ => by simp [at_])

/-- Attention and timer that follow a backlog in order are in order (R96 to R98). -/
theorem AttentionAfter.attentionOk {tick : Nat} {asserted : Bool} {timer : Option Nat}
    (h : AttentionAfter tick q.ring asserted timer r) (counted : r.CountOk q) : r.AttentionOk q := by
  have working := h.one_at_work
  have urgent := counted.backlog_of_urgent
  obtain ⟨-, -, -, -, -, below⟩ := counted
  unfold AttentionAfter at h
  rw [← urgentAhead_iff] at h
  obtain ⟨empty, asserts, -⟩ := h
  refine ⟨empty, fun attention => ?_, fun backlog => ?_, fun hurried => (asserts ?_ (.inr hurried)).1⟩
  · rcases Nat.eq_zero_or_pos r.backlog with idle | backlog
    · exact (empty idle).2
    · exact (working backlog).elim And.right fun waits => absurd attention (by simp [waits.1])
  · exact (working backlog).imp And.left And.right
  · rcases hurried with many | lagging | ahead
    · omega
    · by_contra none
      exact absurd lagging (by simp [below (by omega)])
    · exact urgent ahead

theorem CursorRecord.CountOk.refresh_attentionOk (h : r.CountOk q) (tick : Nat) :
    (r.refresh tick q.ring).AttentionOk q := (r.refresh_attention tick q.ring).attentionOk (h.refresh tick q.ring)

end

/-! ### Posting -/

/-- Ring and cursor records in order, their attention apart. -/
def Queue.CountsOk (q : Queue) : Prop := q.RingOk ∧ ∀ l, (q.cursors.get l).CountOk q

/-- The event queue in order, attention left out while the reset pin is held (R176). -/
def Queue.Ok (held : Bool) (q : Queue) : Prop :=
  q.RingOk ∧ ∀ l, (q.cursors.get l).CountOk q ∧ (held = false → (q.cursors.get l).AttentionOk q)

theorem State.queueOk_iff (s : State) : s.QueueOk ↔ s.queue.Ok s.startup.resetHeld := Iff.rfl

theorem Queue.Ok.counts {held : Bool} {q : Queue} (h : q.Ok held) : q.CountsOk := ⟨h.1, fun l => (h.2 l).1⟩

section
variable {q : Queue}

/-- Room is made by discarding the oldest of 64 entries, and not otherwise (R86). -/
theorem Queue.makeRoom_cases (h : q.RingOk) :
    (q.ring.length < 64 ∧ q.makeRoom = q) ∨
      ∃ d f rest, q.ring.length = 64 ∧ q.ring = d :: f :: rest ∧ f.seq = nextSeq d.seq ∧
        q.makeRoom = { q with ring := f :: rest, cursors := q.cursors.map (CursorRecord.discard d) } := by
  obtain ⟨-, most, -, consecutive, -⟩ := h
  unfold Queue.makeRoom ringSize
  split_ifs with room
  · exact .inl ⟨room, rfl⟩
  · have full : q.ring.length = 64 := by omega
    unfold Queue.discardOldest
    rcases hr : q.ring with - | ⟨d, - | ⟨f, rest⟩⟩
    · simp [hr] at full
    · simp [hr] at full
    · rw [hr, consecutive_iff_isChain, List.isChain_cons_cons] at consecutive
      exact .inr ⟨d, f, rest, hr ▸ full, rfl, consecutive.1, rfl⟩

theorem Queue.makeRoom_newest (q : Queue) : q.makeRoom.newest = q.newest := by
  unfold Queue.makeRoom Queue.discardOldest
  split_ifs
  · rfl
  · split <;> rfl

/-- Room made leaves ring and counts in order, with a place free. -/
theorem Queue.CountsOk.makeRoom (h : q.CountsOk) : q.makeRoom.CountsOk ∧ q.makeRoom.ring.length < 64 := by
  obtain ⟨ringOk, counts⟩ := h
  rcases Queue.makeRoom_cases ringOk with ⟨room, made⟩ | ⟨d, f, rest, full, oldest, follows, made⟩
  · rw [made]
    exact ⟨⟨ringOk, counts⟩, room⟩
  · rw [made]
    obtain ⟨-, -, range, consecutive, last⟩ := ringOk
    rw [oldest] at full range consecutive last
    simp only [List.length_cons] at full
    refine ⟨⟨⟨?_, ?_, fun e he => range e (List.mem_cons_of_mem _ he), ?_, ?_⟩, fun l => ?_⟩, ?_⟩
    · simp
    · simp only [List.length_cons]
      omega
    · exact consecutive.2
    · simpa [List.getLast?_cons_cons] using last
    · rw [PerLink.get_map]
      exact (counts l).discard oldest follows rfl rfl
    · simp only [List.length_cons]
      omega

/-- A posting leaves ring and counts in order, and every attention line with its timer (R85, R86, R96 to R99). -/
theorem Queue.CountsOk.post (h : q.CountsOk) (tick : Nat) (c : Content) (held : Bool) : (q.post tick c).Ok held := by
  have newestMade := q.makeRoom_newest
  obtain ⟨⟨ringOk, counts⟩, room⟩ := h.makeRoom
  have newest := ringOk.newest_range
  obtain ⟨-, -, range, consecutive, last⟩ := ringOk
  rw [consecutive_iff_isChain] at consecutive
  refine ⟨⟨?_, ?_, ?_, ?_, ?_⟩, fun l => ?_⟩
  · simp [Queue.post]
  · simp only [Queue.post, List.length_append, List.length_singleton]
    omega
  · simp only [Queue.post, List.mem_append, List.mem_singleton]
    rintro e (he | rfl)
    · exact range e he
    · exact nextSeq_range (by omega)
  · rw [consecutive_iff_isChain]
    refine List.isChain_append.2 ⟨consecutive, List.isChain_singleton _, fun x hx y hy => ?_⟩
    rw [← Option.mem_some.1 hy, Follows, ← newestMade]
    have : x.seq = q.makeRoom.newest := by simpa [Option.mem_def.1 hx] using last
    rw [this]
  · simp [Queue.post]
  · rw [Queue.post_cursor]
    have counted := (counts l).count (q' := q.post tick c)
      (e := { seq := nextSeq q.newest, time := uptimeOf tick, content := c }) (by rw [newestMade]) rfl
    exact ⟨counted.refresh _ _, fun _ => counted.refresh_attentionOk tick⟩

theorem Queue.Ok.post_foldl {held : Bool} (h : q.Ok held) (tick : Nat) (cs : List Content) :
    (cs.foldl (fun q c => q.post tick c) q).Ok held := by
  induction cs generalizing q with
  | nil => exact h
  | cons c cs ih => exact ih (h.counts.post tick c held)

end

end Sys2Proof.Machine
end

/-! ## Entries byte by byte, fetches and seeks -/

section
/-!
SUPPORT. An entry's 14 bytes field by field (R83, R168, R170), and what EVENTS FETCH, EVENTS SEEK and LINK SET make of a
cursor record (R91 to R95).
-/

namespace Sys2Proof.Machine

/-! ### An entry's bytes -/

theorem nibbles_worth (hi lo : Nat) : Worth [nibbles hi lo] 1 (16 * hi + lo) := byteOf_worth _

theorem linkCode_worth (l : Link) : Worth [byteOf (linkCode l)] 1 (linkCodeOf (some l)) := linkByte_worth (some l)

theorem levelRank_eq (x : Level) : (x.rank : Int) = levelCodeOf (some x) := by
  cases x <;> decide

theorem linkCode_eq (l : Link) : (linkCode l : Int) = linkCodeOf (some l) := by
  cases l <;> decide

/-- The code of one end of a LEVEL entry (R168). -/
def conditionCode : Condition → Int
  | .level x => levelCodeOf (some x)
  | .unknown => 4
  | .starting => 5

theorem Condition.code_eq (c : Condition) : (c.code : Int) = conditionCode c := by
  cases c with
  | level x => exact levelRank_eq x
  | unknown => rfl
  | starting => rfl

theorem Cause.code_worth (c : Cause) :
    Worth [byteOf c.code] 1 (codeIn [.powerOn, .resetPin, .restart .a, .restart .b, .restart .c] c + 1) := by
  cases c with
  | powerOn => exact ⟨rfl, by decide⟩
  | resetPin => exact ⟨rfl, by decide⟩
  | restart l => cases l <;> exact ⟨rfl, by decide⟩

theorem ConfigSource.code_worth (x : ConfigSource) : Worth [byteOf x.code] 1 (codeIn [.defaults, .stored] x) := by
  cases x <;> exact ⟨rfl, by decide⟩

/-- The flags and the reason of a LEVEL entry in one byte (R170). -/
theorem levelFlags_worth (held projected floor : Bool) (reason : Option UnknownReason) :
    Worth [flagByte held + 2 * flagByte projected + 4 * flagByte floor + nibbles (reasonCode reason) 0] 1
      (flagCode held + 2 * flagCode projected + 4 * flagCode floor +
        16 * codeIn [none, some .stale, some .airBad, some .noSurface] reason) := by
  refine ⟨rfl, ?_⟩
  revert held projected floor
  rcases reason with - | - | - | - <;> decide

theorem outTurn_worth (old new : Bool) :
    Worth [nibbles (if old then 1 else 0) (if new then 1 else 0)] 1 (16 * flagCode old + flagCode new) := by
  cases old <;> cases new <;> exact nibbles_worth _ _

theorem claimCause_worth (l : Link) : Worth [nibbles 2 (linkCode l)] 1 (16 * 2 + linkCodeOf (some l)) :=
  linkCode_eq l ▸ nibbles_worth 2 (linkCode l)

theorem assertMode_worth (x : Level) : Worth [nibbles 2 x.rank] 1 (16 * 2 + levelCodeOf (some x)) :=
  levelRank_eq x ▸ nibbles_worth 2 x.rank

/-- An entry laid out: seq, time, kind, subject, operands a, b, x and y (R170). -/
theorem Entry.bytes_lie {e : Entry} {subject a b x y : Int} (hs : Worth [byteOf e.content.subject] 1 subject)
    (ha : Worth [e.content.operandA] 1 a) (hb : Worth [e.content.operandB] 1 b)
    (hx : Worth (halfOfInt e.content.operandX) 2 x) (hy : Worth (halfOfInt e.content.operandY) 2 y) :
    Lies 0 e.bytes
      [⟨0, 2, e.seq⟩, ⟨2, 4, e.time.toNat⟩, ⟨6, 1, e.content.kindCode⟩, ⟨7, 1, subject⟩, ⟨8, 1, a⟩, ⟨9, 1, b⟩,
       ⟨10, 2, x⟩, ⟨12, 2, y⟩] 14 := by
  simp only [Entry.bytes, List.append_assoc, List.cons_append, List.nil_append]
  exact .bytes (halfOf_worth _) <| .bytes (wordBytes_worth _) <| .byte (byteOf_worth _) <| .byte hs <| .byte ha <|
    .byte hb <| .bytes hx <| .last hy

/-- Each kind of entry, its operands as R83 and R170 give them. -/
theorem entryBytes_lie (e : Entry) : Lies 0 e.bytes (entryFields e) 14 := by
  have zero : Worth (halfOfInt 0) 2 0 := halfOfInt_worth 0
  obtain ⟨seq, time, content⟩ := e
  cases content with
  | start cause source => exact Entry.bytes_lie (byteOf_worth 0) cause.code_worth source.code_worth zero zero
  | level z old new held projected floor reason g td =>
    refine Entry.bytes_lie (byteOf_worth _) (?_ : Worth _ 1 (16 * conditionCode old + conditionCode new))
      (levelFlags_worth held projected floor reason) (halfOfInt_worth g) (halfOfInt_worth td)
    rw [← old.code_eq, ← new.code_eq]
    exact nibbles_worth _ _
  | probeFault n f => cases f <;> exact Entry.bytes_lie (byteOf_worth _) (byteOf_worth _) (byteOf_worth 0) zero zero
  | probeOk n => exact Entry.bytes_lie (byteOf_worth _) (byteOf_worth 0) (byteOf_worth 0) zero zero
  | config subject l =>
    cases subject with
    | zone z epoch =>
      exact Entry.bytes_lie (byteOf_worth _) (byteOf_worth 1) (linkCode_worth l) (halfOfInt_worth _) zero
    | line n => exact Entry.bytes_lie (byteOf_worth _) (byteOf_worth 2) (linkCode_worth l) zero zero
    | output o => exact Entry.bytes_lie (byteOf_worth _) (byteOf_worth 3) (linkCode_worth l) zero zero
    | link k => exact Entry.bytes_lie (linkCode_worth k) (byteOf_worth 4) (linkCode_worth l) zero zero
    | rank => exact Entry.bytes_lie (byteOf_worth 0) (byteOf_worth 5) (linkCode_worth l) zero zero
  | hold z l mode minutes =>
    cases mode with
    | suppress =>
      exact Entry.bytes_lie (byteOf_worth _) (linkCode_worth l) (nibbles_worth 1 15) (halfOfInt_worth _) zero
    | assert x =>
      exact Entry.bytes_lie (byteOf_worth _) (linkCode_worth l) (assertMode_worth x) (halfOfInt_worth _) zero
  | holdEnd z cause l =>
    cases cause <;> exact Entry.bytes_lie (byteOf_worth _) (byteOf_worth _) (linkCode_worth l) zero zero
  | ack z l seq => exact Entry.bytes_lie (byteOf_worth _) (linkCode_worth l) (byteOf_worth 0) (halfOfInt_worth _) zero
  | output o old new cause =>
    cases cause with
    | claim l => exact Entry.bytes_lie (byteOf_worth _) (outTurn_worth old new) (claimCause_worth l) zero zero
    | _ => exact Entry.bytes_lie (byteOf_worth _) (outTurn_worth old new) (nibbles_worth _ 0) zero zero
  | claimEnd o l cause =>
    cases cause <;> exact Entry.bytes_lie (byteOf_worth _) (linkCode_worth l) (byteOf_worth _) zero zero
  | store result => cases result <;> exact Entry.bytes_lie (byteOf_worth 0) (byteOf_worth _) (byteOf_worth 0) zero zero

/-! ### EVENTS FETCH -/

section
variable {f : Filter} {n : Nat}

/-- A fetch that returns all it was asked for stops on the last entry it returns (R91, R92). -/
theorem scanMatching_stops_on_match (es : List Entry) (full : (scanMatching f (n + 1) es).1.length = n + 1) :
    ∃ front e, matchesFilter f e.content = true ∧ es = front ++ e :: (scanMatching f (n + 1) es).2 := by
  induction es generalizing n with
  | nil => simp [scanMatching] at full
  | cons d es ih =>
    by_cases hit : matchesFilter f d.content = true
    · simp only [scanMatching, hit, if_true, List.length_cons, Nat.add_right_cancel_iff] at full ⊢
      cases n with
      | zero => exact ⟨[], d, hit, by simp [scanMatching]⟩
      | succ n =>
        obtain ⟨front, e, he, rest⟩ := ih full
        exact ⟨d :: front, e, he, congrArg (d :: ·) rest⟩
    · simp only [scanMatching, hit] at full ⊢
      obtain ⟨front, e, he, rest⟩ := ih full
      exact ⟨d :: front, e, he, congrArg (d :: ·) rest⟩

end

section
variable (l : Link) (n : Nat) (s : State)

/-- What a fetch makes of its link's cursor record, before attention (R91). -/
def State.fetched : CursorRecord :=
  ({ s.cursor l with cursor := cursorAt s.queue.newest (s.scan l n).2, missed := 0 } : CursorRecord).setBacklog
    ((s.cursor l).backlog - (s.scan l n).1.length)

theorem State.fetch_setCursor :
    s.fetch l n = s.setCursor l ((s.fetched l n).refresh s.tick s.queue.ring) := rfl

/-- What is ahead of a cursor is the end of the ring. -/
theorem fromCursor_isEnd (ring : List Entry) (cursor : Nat) : ∃ before, ring = before ++ fromCursor ring cursor :=
  ⟨_, List.takeWhile_append_dropWhile.symm⟩

end

/-- A fetch leaves its cursor record's count in order: the cursor on what is left, and the count of it (R91, R92). -/
theorem State.fetched_countOk {l : Link} {s : State} (ringOk : s.queue.RingOk)
    (counted : (s.cursor l).CountOk s.queue) (n : Nat) : (s.fetched l n).CountOk s.queue := by
  obtain ⟨-, backlog, -, gather, -⟩ := counted
  obtain ⟨before, whole⟩ := fromCursor_isEnd s.queue.ring (s.cursor l).cursor
  obtain ⟨passed, ahead, got, -, -⟩ :=
    scanMatching_spec (s.cursor l).settings.filter n (fromCursor s.queue.ring (s.cursor l).cursor)
  change _ = passed ++ (s.scan l n).2 at ahead
  change (s.scan l n).1 = _ at got
  have held : s.queue.ring = (before ++ passed) ++ (s.scan l n).2 := by rw [List.append_assoc, ← ahead, ← whole]
  refine CursorRecord.setBacklog_countOk ?_ ?_ (Nat.zero_le _) gather
  · unfold InPlace
    rcases left : (s.scan l n).2 with - | ⟨e, after⟩
    · exact .inr rfl
    · exact .inl ⟨e, by rw [held, left]; simp, rfl⟩
  · dsimp only
    rw [countMatching, ringOk.fromCursor_cursorAt held, backlog, countMatching, ahead, List.countP_append, got,
      ← List.countP_eq_length_filter, Nat.add_sub_cancel_left]

/-! ### EVENTS SEEK -/

/-- What a seek makes of its link's cursor record, before attention (R93, R94). -/
def State.sought (l : Link) (cursor : Nat) (o : SeekOutcome) (s : State) : CursorRecord :=
  CursorRecord.recount s.queue.ring
    { s.cursor l with cursor := cursor, missed := if o = SeekOutcome.older then 0 else (s.cursor l).missed }

theorem State.seek_setCursor (s : State) (l : Link) (cursor : Nat) (o : SeekOutcome) :
    s.seek l cursor o = s.setCursor l ((s.sought l cursor o).refresh s.tick s.queue.ring) := rfl

theorem Queue.RingOk.oldest_held {q : Queue} (h : q.RingOk) : ∃ e ∈ q.ring, e.seq = q.oldest := by
  obtain ⟨least, -⟩ := h
  unfold Queue.oldest
  split
  next e rest held => exact ⟨e, by simp [held], rfl⟩
  next empty => simp [empty] at least

theorem Queue.oldest_of_head {q : Queue} {e : Entry} (h : q.ring.head? = some e) : q.oldest = e.seq := by
  obtain ⟨rest, held⟩ := List.head?_eq_some_iff.1 h
  rw [Queue.oldest, held]

section
variable {q : Queue} {target : Byte} {seq : Half}

theorem half_range (h : seq ≠ 0) : 1 ≤ seq.toNat ∧ seq.toNat ≤ 65535 := by
  bv_omega

/-- A seek to a seq is decided by its distance behind the newest (R94). -/
theorem Queue.seekPlace_seq (seek : target = 2) (given : seq ≠ 0) :
    q.seekPlace target seq =
      if seqDistance q.newest seq.toNat < q.ring.length then some (seq.toNat, .held)
      else if seqDistance q.newest seq.toNat ≤ 32767 then some (q.oldest, .older) else none := by
  subst seek
  rw [Queue.seekPlace, if_neg (by decide), if_neg (by decide), if_pos (by simpa using given)]

/-- A seek places the cursor on the oldest entry, on the entry it names, or one past the newest (R93, R94). -/
theorem Queue.seekPlace_inPlace (h : q.RingOk) {cursor : Nat} {o : SeekOutcome}
    (place : q.seekPlace target seq = some (cursor, o)) : InPlace q cursor := by
  unfold Queue.seekPlace at place
  simp only at place
  split_ifs at place with oldest newest given near older
  · cases place
    exact .inl h.oldest_held
  · cases place
    exact .inr rfl
  · cases place
    simp only [Bool.and_eq_true, decide_eq_true_eq, bne_iff_ne] at given
    exact .inl (h.held_of_distance (half_range given.2) near)
  · cases place
    exact .inl h.oldest_held

end

/-- A seek leaves its cursor record's count in order. -/
theorem State.sought_countOk {l : Link} {s : State} {cursor : Nat} (place : InPlace s.queue cursor)
    (counted : (s.cursor l).CountOk s.queue) (o : SeekOutcome) : (s.sought l cursor o).CountOk s.queue := by
  obtain ⟨-, -, missed, gather, -⟩ := counted
  refine CursorRecord.recount_countOk place ?_ gather
  dsimp only
  split_ifs
  · exact Nat.zero_le _
  · exact missed

end Sys2Proof.Machine
end

/-! ## What a command does to the event queue -/

section
/-!
SUPPORT. The operations that do nothing to the event queue but post, and the inversion of `exec` for the event queue:
what a command can do to ring, cursor records and reset pin (R85, R91 to R96, R102, R103, R176).
-/

namespace Sys2Proof.Machine

/-! ### Operations that post -/

/-- Entries are posted and nothing else of the event queue has changed; the time and the reset pin are as before. -/
structure QueuePosted (s t : State) : Prop where
  posts : ∃ cs, Posts cs s t
  tick : t.tick = s.tick
  held : t.startup.resetHeld = s.startup.resetHeld

theorem QueuePosted.refl (s : State) : QueuePosted s s := ⟨⟨[], .nil rfl⟩, rfl, rfl⟩

theorem QueuePosted.trans {s t u : State} (h : QueuePosted s t) (k : QueuePosted t u) : QueuePosted s u := by
  obtain ⟨⟨cs, posts⟩, tick, held⟩ := h
  obtain ⟨⟨ds, more⟩, tick', held'⟩ := k
  exact ⟨⟨cs ++ ds, posts.trans more tick⟩, tick'.trans tick, held'.trans held⟩

/-- An operation that posts and changes neither the time nor start-up control. -/
theorem ChangesOnly.queuePosted {ps : List Part} {cs : List Content} {s t : State} (frame : ChangesOnly ps s t)
    (posts : Posts cs s t) (ht : Part.tick ∉ ps) (hu : Part.startup ∉ ps) : QueuePosted s t :=
  ⟨⟨cs, posts⟩, frame .tick ht, congrArg Startup.resetHeld (frame .startup hu)⟩

/-- An operation that changes neither the event queue, nor the time, nor start-up control. -/
theorem ChangesOnly.queueKept {ps : List Part} {s t : State} (frame : ChangesOnly ps s t) (hq : Part.queue ∉ ps)
    (ht : Part.tick ∉ ps) (hu : Part.startup ∉ ps) : QueuePosted s t :=
  frame.queuePosted (cs := []) (.nil (frame .queue hq)) ht hu

theorem QueuePosted.foldl {α : Type} {f : State → α → State} (h : ∀ s x, QueuePosted s (f s x)) (xs : List α)
    (s : State) : QueuePosted s (xs.foldl f s) := by
  induction xs generalizing s with
  | nil => exact .refl s
  | cons x xs ih => exact (h s x).trans (ih (f s x))

theorem ZoneInformed.queuePosted {z : ZoneId} {r : ZoneRecord} {cs : List Content} {told : Prop} {s t : State}
    (h : ZoneInformed z r cs told s t) : QueuePosted s t := h.frame.queuePosted h.posts (by decide) (by decide)

section
variable (s : State)

theorem State.post_queuePosted (c : Content) : QueuePosted s (s.post c) := ⟨⟨[c], (Posts.nil rfl).post rfl c⟩, rfl, rfl⟩

theorem State.setLine_queuePosted (n : LineId) (r : LineRecord) : QueuePosted s (s.setLine n r) :=
  (s.setLine_changesOnly n r).queueKept (by decide) (by decide) (by decide)

theorem State.setZone_queuePosted (z : ZoneId) (r : ZoneRecord) : QueuePosted s (s.setZone z r) :=
  (s.setZone_changesOnly z r).queueKept (by decide) (by decide) (by decide)

theorem State.setOut_queuePosted (o : OutId) (r : OutRecord) : QueuePosted s (s.setOut o r) :=
  (s.setOut_changesOnly o r).queueKept (by decide) (by decide) (by decide)

theorem State.setLink_queuePosted (l : Link) (r : LinkRecord) : QueuePosted s (s.setLink l r) :=
  (s.setLink_changesOnly l r).queueKept (by decide) (by decide) (by decide)

theorem State.actOut_queuePosted (o : OutId) (cause : Option OutCause) : QueuePosted s (s.actOut o cause) := by
  obtain ⟨frame, -, -, posts⟩ := s.actOut_spec o cause
  exact frame.queuePosted posts (by decide) (by decide)

theorem State.settleOut_queuePosted (o : OutId) (cause : Option OutCause) : QueuePosted s (s.settleOut o cause) :=
  (s.setOut_queuePosted o _).trans (State.actOut_queuePosted _ o cause)

theorem State.demandOut_queuePosted (o : OutId) : QueuePosted s (s.demandOut o) :=
  (s.setOut_queuePosted o _).trans (State.settleOut_queuePosted _ o none)

theorem State.winnerOut_queuePosted (o : OutId) (cause : Option OutCause) : QueuePosted s (s.winnerOut o cause) :=
  (s.setOut_queuePosted o _).trans (State.settleOut_queuePosted _ o cause)

theorem State.startOut_queuePosted (o : OutId) : QueuePosted s (s.startOut o) :=
  (s.demandOut_queuePosted o).trans (State.setOut_queuePosted _ o _)

/-- The outputs of a reset act one after the other (R126, R127). -/
theorem State.startOuts_queuePosted : QueuePosted s ((List.finRange 4).foldl (fun s o => s.startOut o) s) :=
  .foldl (f := fun s o => s.startOut o) (fun s o => s.startOut_queuePosted o) _ s

theorem State.writeOut_queuePosted (l : Link) (o : OutId) (c : OutConfig) : QueuePosted s (s.writeOut l o c) := by
  have configured := (s.setOut_queuePosted o { s.out o with config := c }).trans
    (State.post_queuePosted _ (.config (.output o) l))
  exact ((configured.trans (State.setOut_queuePosted _ o _)).trans (State.demandOut_queuePosted _ o)).trans
    (State.setOut_queuePosted _ o _)

theorem State.storeClaim_queuePosted (l : Link) (o : OutId) (on : Bool) (minutes : Nat) :
    QueuePosted s (s.storeClaim l o on minutes) := by
  have stored : ∀ u : State, QueuePosted u
      ((u.setClaim o l (some { on := on, expiry := secondsAfter s.now (60 * minutes) })).winnerOut o none) := fun u =>
    (u.setOut_queuePosted o _).trans (State.winnerOut_queuePosted _ o none)
  unfold State.storeClaim
  split_ifs
  · exact (s.post_queuePosted _).trans (stored _)
  · exact stored s

theorem State.endClaim_queuePosted (o : OutId) (l : Link) (cause : ClaimEndCause) (turn : Option OutCause) :
    QueuePosted s (s.endClaim o l cause turn) :=
  ((s.setOut_queuePosted o _).trans (State.post_queuePosted _ _)).trans (State.winnerOut_queuePosted _ o turn)

theorem State.writeRank_queuePosted (l : Link) (rank : Rank) : QueuePosted s (s.writeRank l rank) := by
  have ranked : QueuePosted s { s with rank := rank } := ⟨⟨[], .nil rfl⟩, rfl, rfl⟩
  have posted := ranked.trans (State.post_queuePosted _ (.config .rank l))
  unfold State.writeRank
  generalize ({ s with rank := rank } : State).post (.config .rank l) = u at posted ⊢
  exact posted.trans (.foldl (f := fun s o => s.winnerOut o none) (fun s o => s.winnerOut_queuePosted o none) _ u)

theorem State.writeLine_queuePosted (l : Link) (n : LineId) (c : LineConfig) : QueuePosted s (s.writeLine l n c) :=
  (s.setLine_queuePosted n _).trans (State.post_queuePosted _ _)

theorem State.completeWrite_queuePosted (snapshot : Settings) (ok : Bool) :
    QueuePosted s (s.completeWrite snapshot ok) :=
  ⟨⟨[.store (if ok then .saved else .failed)], rfl⟩, rfl, rfl⟩

theorem State.referenceEdgeAt_queuePosted (n : LineId) : QueuePosted s (s.referenceEdgeAt n) := by
  obtain ⟨frame, -, -, posts, -⟩ := s.referenceEdgeAt_spec n
  exact frame.queuePosted posts (by decide) (by decide)

theorem State.takeEdge_queuePosted (n : LineId) : QueuePosted s (s.takeEdge n) := by
  unfold State.takeEdge
  split_ifs
  · exact (s.setLine_queuePosted n _).trans (State.referenceEdgeAt_queuePosted _ n)
  · exact s.setLine_queuePosted n _

theorem State.takeWaitingEdges_queuePosted : QueuePosted s s.takeWaitingEdges := by
  refine QueuePosted.foldl (fun s n => ?_) _ s
  split_ifs
  · exact s.takeEdge_queuePosted n
  · exact .refl s

theorem State.evaluate_queuePosted (z : ZoneId) (n : LineId) (c : Converted) : QueuePosted s (s.evaluate z n c) := by
  by_cases ends : (stageOne z s).1.active.air ≠ some n ∨ (stageOne z s).1.status = .disabled
  · exact (State.evaluate_stops c ends).queuePosted
  · rw [not_or, not_not] at ends
    have judged := State.evaluate_judges c ends.1 ends.2
    exact judged.frame.queuePosted judged.posts (by decide) (by decide)

theorem State.takeCompletion_queuePosted (c : Completion) : QueuePosted s (s.takeCompletion c) := by
  unfold State.takeCompletion
  split
  · exact .refl s
  · split_ifs
    · exact .refl s
    · exact s.evaluate_queuePosted _ _ _

theorem State.expireDeadline_queuePosted (z : ZoneId) : QueuePosted s (s.expireDeadline z) := by
  rcases h : (s.zone z).status
  · rw [s.expireDeadline_disabled z h]
    exact s.setZone_queuePosted z _
  · exact (s.expireDeadline_turnsUnknown z (.inl h)).queuePosted
  · exact (s.expireDeadline_turnsUnknown z (.inr h)).queuePosted
  · exact (s.expireDeadline_unknown z h).queuePosted

end

/-! ### What a command can do -/

/-- A cursor record written by its own link's request, or by its gather timer. -/
inductive CursorChange (l : Link) (s : State) : CursorRecord → Prop where
  /-- EVENTS FETCH (R91). -/
  | fetched (n : Nat) : CursorChange l s ((s.fetched l n).refresh s.tick s.queue.ring)
  /-- EVENTS SEEK (R93, R94). -/
  | sought (target : Byte) (seq : Half) (cursor : Nat) (o : SeekOutcome)
      (place : s.queue.seekPlace target seq = some (cursor, o)) :
      CursorChange l s ((s.sought l cursor o).refresh s.tick s.queue.ring)
  /-- GATHER_TIMER_EXPIRY (R96). -/
  | gathered : CursorChange l s (s.cursor l).gatherExpire

/-- What a command does to the event queue and to the reset pin. -/
inductive QueueStep (s t : State) : Prop where
  | posted (cs : List Content) (posts : Posts cs s t) (held : t.startup.resetHeld = s.startup.resetHeld)
  /-- One link's cursor record. -/
  | cursor (l : Link) (r : CursorRecord) (change : CursorChange l s r) (queue : t.queue = (s.setCursor l r).queue)
      (held : t.startup.resetHeld = s.startup.resetHeld)
  /-- LINK SET past its checks (R95). -/
  | linkSet (l : Link) (c : LinkSettings) (gather : c.gatherMs ≤ 2000) (queue : t.queue = (s.writeLink l c).queue)
      (held : t.startup.resetHeld = s.startup.resetHeld)
  /-- A restart, after the entries `before` of its own event (R103). -/
  | restarted (before after : List Content) (cause : Cause) (source : ConfigSource)
      (queue : t.queue = after.foldl (fun q c => q.post s.tick c)
        ((before.foldl (fun q c => q.post s.tick c) s.queue).emptied.post s.tick (.start cause source)))
      (held : t.startup.resetHeld = s.startup.resetHeld)
  /-- A full reset (R102). -/
  | reset (links : PerLink LinkSettings) (gather : ∀ l, (links.get l).gatherMs ≤ 2000) (cs : List Content)
      (cause : Cause) (source : ConfigSource)
      (queue : t.queue = cs.foldl (fun q c => q.post 0 c)
        (Queue.post 0 (.start cause source)
          { ring := [], newest := 0, cursors := links.map (fun x => CursorRecord.fresh x 1) }))
  /-- The reset pin goes low (R176). -/
  | pinLow (queue : t.queue = { s.queue with cursors := s.queue.cursors.map (fun r => { r with attention := false }) })
      (held : t.startup.resetHeld = true)

theorem QueuePosted.step {s t : State} (h : QueuePosted s t) : QueueStep s t := by
  obtain ⟨⟨cs, posts⟩, -, held⟩ := h
  exact .posted cs posts held

theorem QueueStep.refl (s : State) : QueueStep s s := (QueuePosted.refl s).step

/-- An operation after the step that leaves event queue and reset pin. -/
theorem QueueStep.thenKept {s u t : State} (h : QueueStep s u) (queue : t.queue = u.queue)
    (held : t.startup.resetHeld = u.startup.resetHeld) : QueueStep s t := by
  cases h with
  | posted cs posts held' => exact .posted cs (queue.trans posts) (held.trans held')
  | cursor l r change queue' held' => exact .cursor l r change (queue.trans queue') (held.trans held')
  | linkSet l c gather queue' held' => exact .linkSet l c gather (queue.trans queue') (held.trans held')
  | restarted before after cause source queue' held' =>
    exact .restarted before after cause source (queue.trans queue') (held.trans held')
  | reset links gather cs cause source queue' => exact .reset links gather cs cause source (queue.trans queue')
  | pinLow queue' held' => exact .pinLow (queue.trans queue') (held.trans held')

/-- A request's answer decides what becomes of the event queue: the response touches link records alone. -/
theorem serveRequest_queue {l : Link} {k : RequestKind} {i : Instr} {act : State → Answer} {s t : State}
    (h : serveRequest l k i act s = .next t) (acts : QueueStep s (act s).state) : QueueStep s t := by
  obtain rfl : s.unlessHeld (fun s => s.serve l k i act) = t := Host.Outcome.next.inj h
  unfold State.unlessHeld
  split_ifs
  · exact .refl s
  · change QueueStep s (s.serve l k i act)
    rcases s.serve_cases l k i act with ⟨-, e⟩ | ⟨-, e⟩ | ⟨-, e⟩ | ⟨-, e⟩ | ⟨-, e⟩ <;> rw [e]
    · exact acts.thenKept rfl rfl
    · exact (QueueStep.refl s).thenKept rfl rfl
    · exact (QueueStep.refl s).thenKept rfl rfl
    · exact (s.setLink_queuePosted l _).step
    · exact .refl s

/-- An event does nothing while the reset pin is held. -/
theorem unlessHeld_queue {f : State → State} {s t : State}
    (h : (.next (s.unlessHeld f) : Host.Outcome State Fault Refusal) = .next t) (acts : QueueStep s (f s)) :
    QueueStep s t := by
  obtain rfl : s.unlessHeld f = t := Host.Outcome.next.inj h
  unfold State.unlessHeld
  split_ifs
  · exact .refl s
  · exact acts

/-! ### The requests -/

theorem answerLineSet_queuePosted (l : Link) (line : Byte) (b : LineBlock) (s : State) :
    QueuePosted s (answerLineSet l line b s).state := by
  unfold answerLineSet
  split
  · exact .refl s
  · split
    · exact .refl s
    · split
      · exact .refl s
      · exact s.writeLine_queuePosted l _ _

theorem acceptZoneSet_queuePosted (l : Link) (z : ZoneId) (c : ZoneConfig) (s : State) :
    QueuePosted s (acceptZoneSet l z c s).state := by
  by_cases disabled : (s.zone z).status = .disabled
  · exact (acceptZoneSet_disabled l c disabled).1.queuePosted
  · rw [acceptZoneSet_waits l c disabled]
    exact s.setZone_queuePosted z _

theorem answerZoneSet_queuePosted (l : Link) (zone : Byte) (b : ZoneBlock) (s : State) :
    QueuePosted s (answerZoneSet l zone b s).state := by
  unfold answerZoneSet
  split
  · exact .refl s
  · split
    · exact .refl s
    · split
      · exact .refl s
      · split
        · exact .refl s
        · exact acceptZoneSet_queuePosted l _ _ s

theorem answerZoneHold_queuePosted (l : Link) (zone mode level : Byte) (minutes : Half) (s : State) :
    QueuePosted s (answerZoneHold l zone mode level minutes s).state := by
  unfold answerZoneHold
  split
  · exact .refl s
  · split
    · split
      · exact .refl s
      · exact (s.setHold_informed l _ _ _).queuePosted
    · exact .refl s

theorem answerZoneRelease_queuePosted (l : Link) (zone : Byte) (s : State) :
    QueuePosted s (answerZoneRelease l zone s).state := by
  unfold answerZoneRelease
  split
  · exact .refl s
  · split
    · exact .refl s
    · exact (s.endHold_informed _ _ l).queuePosted

theorem answerZoneAck_queuePosted (l : Link) (zone : Byte) (seq : Half) (s : State) :
    QueuePosted s (answerZoneAck l zone seq s).state := by
  unfold answerZoneAck
  split
  · exact .refl s
  · split
    · exact .refl s
    · split
      · exact .refl s
      · split
        · exact (s.clearLatch_informed l _ _).queuePosted
        · exact .refl s

theorem answerOutSet_queuePosted (l : Link) (out : Byte) (b : OutBlock) (s : State) :
    QueuePosted s (answerOutSet l out b s).state := by
  unfold answerOutSet
  split
  · exact .refl s
  · split
    · exact .refl s
    · exact s.writeOut_queuePosted l _ _

theorem answerOutClaim_queuePosted (l : Link) (out x : Byte) (minutes : Half) (s : State) :
    QueuePosted s (answerOutClaim l out x minutes s).state := by
  unfold answerOutClaim
  split
  · exact .refl s
  · split
    · exact s.storeClaim_queuePosted l _ _ _
    · exact .refl s

theorem answerOutDrop_queuePosted (l : Link) (out : Byte) (s : State) :
    QueuePosted s (answerOutDrop l out s).state := by
  unfold answerOutDrop
  split
  · exact .refl s
  · split
    · exact .refl s
    · exact s.endClaim_queuePosted _ l _ _

theorem answerLinkRank_queuePosted (l : Link) (x y z : Byte) (s : State) :
    QueuePosted s (answerLinkRank l x y z s).state := by
  rcases h : rankOf x y z with - | rank
  · simp only [answerLinkRank, h]
    exact .refl s
  · simp only [answerLinkRank, h]
    exact s.writeRank_queuePosted l rank

theorem answerEventsFetch_queue (l : Link) (n : Byte) (s : State) : QueueStep s (answerEventsFetch l n s).state := by
  unfold answerEventsFetch
  split_ifs
  · exact .cursor l _ (.fetched n.toNat) (congrArg State.queue (s.fetch_setCursor l _)) rfl
  · exact .refl s

theorem answerEventsSeek_queue (l : Link) (target : Byte) (seq : Half) (s : State) :
    QueueStep s (answerEventsSeek l target seq s).state := by
  unfold answerEventsSeek
  split
  · exact .refl s
  next c o place => exact .cursor l _ (.sought target seq c o place) (congrArg State.queue (s.seek_setCursor l c o)) rfl

/-- The settings read from a LINK SET are within their range (R87, R95). -/
theorem linkSettingsOf_range {mask least : Byte} {kinds gather : Half} {c : LinkSettings}
    (h : linkSettingsOf mask kinds least gather = some c) : c.gatherMs ≤ 2000 := by
  obtain ⟨level, -, h⟩ := Option.bind_eq_some_iff.1 h
  obtain ⟨range, written⟩ := Option.ite_none_right_eq_some.1 h
  obtain rfl := Option.some.inj written
  simp only [linkInRange, Bool.and_eq_true, withinNat_iff] at range
  exact range.2.2

theorem answerLinkSet_queue (l : Link) (mask : Byte) (kinds : Half) (least : Byte) (gather : Half) (s : State) :
    QueueStep s (answerLinkSet l mask kinds least gather s).state := by
  unfold answerLinkSet
  split
  · exact .refl s
  next c read => exact .linkSet l c (linkSettingsOf_range read) rfl rfl

/-! ### The events -/

/-- A restart that takes effect after the postings of its own event (R103, R178). -/
theorem QueuePosted.restartNow {s u : State} (h : QueuePosted s u) (l : Link) : QueueStep s (u.restartNow l) := by
  obtain ⟨⟨before, posts⟩, tick, held⟩ := h
  have cleared : (u.restartCleared l).startup.resetHeld = s.startup.resetHeld := held
  have acts := State.startOuts_queuePosted ((u.restartCleared l).post (.start (.restart l) u.startup.source))
  rw [← State.restartNow_eq] at acts
  obtain ⟨⟨after, acts⟩, -, held'⟩ := acts
  refine .restarted before after (.restart l) u.startup.source ?_ (held'.trans cleared)
  rwa [Posts, State.post_tick, State.post_queue, State.restartCleared_tick, State.restartCleared_queue, tick, posts]
    at acts

theorem QueuePosted.restartIfDue {s u : State} (h : QueuePosted s u) : QueueStep s u.restartIfDue := by
  unfold State.restartIfDue
  split
  · split_ifs
    · exact h.restartNow _
    · exact h.step
  · exact h.step

theorem execFullReset_queue {powerRose : Bool} {straps : BitVec 2} {s t : State}
    (h : execFullReset powerRose straps s = .next t) : QueueStep s t := by
  rw [execFullReset_eq] at h
  obtain rfl := Host.Outcome.next.inj h
  obtain ⟨-, -, -, -, gather, -⟩ := s.store.stopWrite.image.load_withinTheRules
  obtain ⟨⟨cs, acts⟩, -, -⟩ := State.startOuts_queuePosted _
  exact .reset _ gather cs _ _ acts

theorem Startup.responseEnds_resetHeld (l : Link) (u : Startup) : (u.responseEnds l).resetHeld = u.resetHeld := by
  unfold Startup.responseEnds
  split
  · split_ifs <;> rfl
  · rfl

/-- Everything a command can do to the event queue. -/
theorem exec_queue {i : Instr} {s t : State} (h : exec i s = .next t) : QueueStep s t := by
  cases i with
  | status l => exact serveRequest_queue h ((QueueStep.refl s).thenKept rfl rfl)
  | lineGet l n => exact serveRequest_queue h (by rw [answerLineGet_state]; exact .refl s)
  | lineSet l n b => exact serveRequest_queue h (answerLineSet_queuePosted l n b s).step
  | zoneGet l z p => exact serveRequest_queue h (by rw [answerZoneGet_state]; exact .refl s)
  | zoneSet l z b => exact serveRequest_queue h (answerZoneSet_queuePosted l z b s).step
  | zoneHold l z m x n => exact serveRequest_queue h (answerZoneHold_queuePosted l z m x n s).step
  | zoneRelease l z => exact serveRequest_queue h (answerZoneRelease_queuePosted l z s).step
  | zoneAck l z n => exact serveRequest_queue h (answerZoneAck_queuePosted l z n s).step
  | outGet l o => exact serveRequest_queue h (by rw [answerOutGet_state]; exact .refl s)
  | outSet l o b => exact serveRequest_queue h (answerOutSet_queuePosted l o b s).step
  | outClaim l o x n => exact serveRequest_queue h (answerOutClaim_queuePosted l o x n s).step
  | outDrop l o => exact serveRequest_queue h (answerOutDrop_queuePosted l o s).step
  | eventsFetch l n => exact serveRequest_queue h (answerEventsFetch_queue l n s)
  | eventsSeek l x n => exact serveRequest_queue h (answerEventsSeek_queue l x n s)
  | linkSet l m k x g => exact serveRequest_queue h (answerLinkSet_queue l m k x g s)
  | linkRank l x y z => exact serveRequest_queue h (answerLinkRank_queuePosted l x y z s).step
  | save l =>
    exact serveRequest_queue h
      ((answerSave_changesOnly s).queueKept (by decide) (by decide) (by decide)).step
  | restart l => exact serveRequest_queue h ((QueueStep.refl s).thenKept rfl rfl)
  | characterReceived l ch =>
    exact unlessHeld_queue h ((s.receive_changesOnly l ch).queueKept (by decide) (by decide) (by decide)).step
  | gapTimerExpiry l =>
    refine unlessHeld_queue h ?_
    split_ifs
    · exact (s.setLink_queuePosted l _).step
    · exact .refl s
  | responseEnd l =>
    refine unlessHeld_queue h ?_
    split_ifs
    · exact QueuePosted.restartIfDue ⟨⟨[], rfl⟩, rfl, s.startup.responseEnds_resetHeld l⟩
    · exact .refl s
  | referenceEdge n =>
    refine unlessHeld_queue h ?_
    split_ifs
    · exact ((s.setLine_queuePosted n _).trans (State.referenceEdgeAt_queuePosted _ n)).step
    · exact .refl s
  | nonReferenceEdge n =>
    refine unlessHeld_queue h ?_
    split_ifs
    · exact (s.setLine_queuePosted n _).step
    · exact .refl s
  | stallTimerExpiry n =>
    refine unlessHeld_queue h ?_
    have stalls : QueuePosted s (s.setLine n (s.line n).stall) := s.setLine_queuePosted n _
    simp only
    split_ifs
    · exact stalls.step
    · exact (stalls.trans (State.post_queuePosted _ _)).step
    · exact .refl s
  | evaluationEvent n =>
    refine unlessHeld_queue h ?_
    split
    · exact .refl s
    next c rest _ =>
      have handed := (s.hand_changesOnly rest).queueKept (by decide) (by decide) (by decide)
      exact (handed.trans (State.takeCompletion_queuePosted _ c)).step
  | staleDeadlineExpiry z =>
    refine unlessHeld_queue h ?_
    split_ifs
    · exact (s.expireDeadline_queuePosted z).step
    · exact .refl s
  | holdExpiry z =>
    refine unlessHeld_queue h ?_
    split
    · split_ifs
      · exact (s.endHold_informed z _ _).queuePosted.step
      · exact .refl s
    · exact .refl s
  | zoneEventAtOutput z o =>
    refine unlessHeld_queue h ?_
    have taken := s.setOut_queuePosted o { s.out o with told := (s.out o).told.erase z }
    simp only
    split_ifs
    · exact (taken.trans (State.demandOut_queuePosted _ o)).step
    · exact taken.step
    · exact .refl s
  | claimExpiry o l =>
    refine unlessHeld_queue h ?_
    split
    · split_ifs
      · exact (s.endClaim_queuePosted o l _ _).step
      · exact .refl s
    · exact .refl s
  | minHoldExpiry o =>
    refine unlessHeld_queue h ?_
    simp only
    split_ifs
    · exact ((s.setOut_queuePosted o _).trans (State.actOut_queuePosted _ o _)).step
    · exact .refl s
  | blinkPhaseExpiry o =>
    refine unlessHeld_queue h ?_
    split
    · split_ifs
      · exact (s.setOut_queuePosted o _).step
      · exact .refl s
    · exact .refl s
  | gatherTimerExpiry l =>
    refine unlessHeld_queue h ?_
    split_ifs
    · exact .cursor l _ .gathered rfl rfl
    · exact .refl s
  | warmupExpiry =>
    refine unlessHeld_queue h ?_
    split_ifs
    · exact (QueueStep.refl s).thenKept rfl rfl
    · exact .refl s
  | storeWriteCompletion ok =>
    refine unlessHeld_queue h ?_
    split
    · exact (s.completeWrite_queuePosted _ ok).restartIfDue
    · exact .refl s
  | fullReset p x => exact execFullReset_queue h
  | restartEffect => exact unlessHeld_queue h (QueuePosted.refl s).restartIfDue
  | resetPinHeldLow =>
    obtain rfl := Host.Outcome.next.inj h
    exact .pinLow rfl rfl
  | captureTick levels =>
    refine unlessHeld_queue h ?_
    have taken := s.takeWaitingEdges_queuePosted.step
    simp only
    generalize s.takeWaitingEdges = u at taken ⊢
    exact taken.thenKept rfl rfl

end Sys2Proof.Machine
end

/-! ## The event queue stays in order -/

section
/-!
PROOFS. Each change that `exec_queue` lists keeps ring, cursor records and attention in order (R81 to R99, R102, R103,
R176).
-/

namespace Sys2Proof.Machine

/-- START alone in the ring, every cursor on it with attention asserted, is in order (R102, R103). -/
theorem Queue.ok_of_start {q : Queue} {seq : Nat} {time : Word} {cause : Cause} {source : ConfigSource} {held : Bool}
    (ring : q.ring = [{ seq := seq, time := time, content := .start cause source }]) (newest : q.newest = seq)
    (range : 1 ≤ seq ∧ seq ≤ 65535) (settings : PerLink LinkSettings) (gather : ∀ l, (settings.get l).gatherMs ≤ 2000)
    (cursors : ∀ l, q.cursors.get l =
      { cursor := seq, backlog := 1, missed := 0, lagging := false, settings := settings.get l, gatherAt := none,
        attention := true }) : q.Ok held := by
  refine ⟨⟨by simp [ring], by simp [ring], by simpa [ring] using range, by simp [ring, Consecutive],
    by simp [ring, newest]⟩, fun l => ?_⟩
  rw [cursors l]
  refine ⟨⟨.inl ⟨_, by rw [ring]; exact List.mem_singleton_self _, rfl⟩, ?_, Nat.zero_le _, gather l, ?_, ?_⟩,
    fun _ => ?_⟩
  · rw [ring, countMatching, fromCursor_head (e := { seq := seq, time := time, content := .start cause source })]
    simp [matchesFilter]
  · simp
  · simp
  · exact ⟨by simp, by simp, by simp, by simp⟩

/-- A cursor record that its own link's request or timer writes is in order. -/
theorem CursorChange.ok {l : Link} {s : State} {r : CursorRecord} (change : CursorChange l s r) (h : s.QueueOk) :
    r.CountOk s.queue ∧ (s.startup.resetHeld = false → r.AttentionOk s.queue) := by
  obtain ⟨ringOk, records⟩ := h
  obtain ⟨counted, attention⟩ := records l
  cases change with
  | fetched n =>
    have counted := s.fetched_countOk ringOk counted n
    exact ⟨counted.refresh _ _, fun _ => counted.refresh_attentionOk _⟩
  | sought target seq cursor o place =>
    have counted := s.sought_countOk (Queue.seekPlace_inPlace ringOk place) counted o
    exact ⟨counted.refresh _ _, fun _ => counted.refresh_attentionOk _⟩
  | gathered =>
    refine ⟨counted, fun notHeld => ?_⟩
    obtain ⟨empty, -, -, hurried⟩ := attention notHeld
    refine ⟨fun idle => ?_, fun _ => rfl, fun backlog => ?_, fun now => ?_⟩
    · have idle : (s.cursor l).backlog = 0 := idle
      simp [CursorRecord.gatherExpire, idle, (empty idle).1]
    · exact .inl (by simpa [CursorRecord.gatherExpire] using Or.inr backlog)
    · simp [CursorRecord.gatherExpire, hurried now]

/-- One cursor record written leaves ring and counts in order where its own is. -/
theorem Queue.CountsOk.setCursor {s : State} (h : s.queue.CountsOk) {l : Link} {r : CursorRecord}
    (counted : r.CountOk s.queue) : (s.setCursor l r).queue.CountsOk := by
  obtain ⟨ringOk, counts⟩ := h
  refine ⟨ringOk, fun k => ?_⟩
  change ((s.setCursor l r).cursor k).CountOk s.queue
  rw [State.setCursor_cursor]
  split_ifs
  · exact counted
  · exact counts k

/-- Every change of the event queue keeps it in order. -/
theorem QueueStep.queueOk {s t : State} (change : QueueStep s t) (h : s.QueueOk) : t.QueueOk := by
  rw [State.queueOk_iff] at h ⊢
  cases change with
  | posted cs posts held =>
    rw [posts, held]
    exact h.post_foldl s.tick cs
  | cursor l r change queue held =>
    obtain ⟨counted, attention⟩ := change.ok h
    rw [queue, held]
    refine ⟨h.1, fun k => ?_⟩
    change ((s.setCursor l r).cursor k).CountOk s.queue ∧
      (s.startup.resetHeld = false → ((s.setCursor l r).cursor k).AttentionOk s.queue)
    rw [State.setCursor_cursor]
    split_ifs
    · exact ⟨counted, attention⟩
    · exact h.2 k
  | linkSet l c gather queue held =>
    obtain ⟨place, -, missed, -⟩ := h.counts.2 l
    rw [queue]
    refine Queue.CountsOk.post ?_ _ _ _
    exact h.counts.setCursor (CursorRecord.recount_countOk place missed gather)
  | restarted before after cause source queue held =>
    have posted := h.post_foldl s.tick before
    generalize before.foldl (fun q c => q.post s.tick c) s.queue = q at posted queue
    obtain ⟨ring, newest, cursors⟩ := q.emptied_post_start s.tick cause source
    have gather : ∀ l, ((q.cursors.map CursorRecord.settings).get l).gatherMs ≤ 2000 := fun l => by
      obtain ⟨-, -, -, gather, -⟩ := posted.counts.2 l
      rw [PerLink.get_map]
      exact gather
    rw [queue]
    refine Queue.Ok.post_foldl (Queue.ok_of_start ring newest (nextSeq_range posted.1.newest_range.2)
      (q.cursors.map CursorRecord.settings) gather fun l => ?_) _ _
    rw [cursors, PerLink.get_map]
  | reset links gather cs cause source queue =>
    obtain ⟨ring, newest, cursors⟩ := Queue.loaded_post_start links 0 cause source
    rw [queue]
    exact Queue.Ok.post_foldl (Queue.ok_of_start ring newest (by decide) links gather cursors) _ _
  | pinLow queue held =>
    obtain ⟨ringOk, counts⟩ := h.counts
    rw [queue, held]
    refine ⟨ringOk, fun l => ⟨?_, nofun⟩⟩
    rw [PerLink.get_map]
    exact counts l

/-- Settles O45: each change of the event queue keeps it in order. -/
theorem eventQueueStaysInOrder : Obligations.EventQueueStaysInOrder := by
  unfold Obligations.EventQueueStaysInOrder
  intro s t ok h
  unfold step at h
  split at h
  · exact Host.Outcome.next.inj h ▸ ok
  next i rest _ => exact (exec_queue h).queueOk ok

end Sys2Proof.Machine
end

/-! ## Postings, filters and the requests of the event queue -/

section
/-!
PROOFS. What a posting makes of ring and cursor records, which entries match a filter, and the answers of EVENTS FETCH,
EVENTS SEEK, LINK SET and the gather timer (R81, R85, R86, R89, R91 to R99, R168, R170).
-/

namespace Sys2Proof.Machine

/-! ### Posting -/

/-- What making room leaves of a link's cursor record `r`, as R86 and R99 give it: a cursor on the oldest of 64 entries
moves on, its match going from the backlog into `missed`. -/
structure RoomMade (q : Queue) (r m : CursorRecord) : Prop where
  settings : m.settings = r.settings
  attention : m.attention = r.attention
  timer : m.gatherAt = r.gatherAt
  dropped : (q.ring.length = 64 ∧ ∃ d, q.ring.head? = some d ∧ r.cursor = d.seq ∧
      matchesFilter r.settings.filter d.content = true) → LaggingAfter r.lagging (r.backlog - 1) m.lagging
  kept : ¬(q.ring.length = 64 ∧ ∃ d, q.ring.head? = some d ∧ r.cursor = d.seq ∧
      matchesFilter r.settings.filter d.content = true) → m.lagging = r.lagging
  moved : ∀ d, q.ring.length = 64 → q.ring.head? = some d → r.cursor = d.seq →
    m.cursor = nextSeq d.seq ∧
      m.missed = (if matchesFilter r.settings.filter d.content = true then min 255 (r.missed + 1) else r.missed) ∧
      m.backlog = (if matchesFilter r.settings.filter d.content = true then r.backlog - 1 else r.backlog)
  stayed : (¬q.ring.length = 64 ∨ ∀ d, q.ring.head? = some d → r.cursor ≠ d.seq) →
    m.cursor = r.cursor ∧ m.missed = r.missed ∧ m.backlog = r.backlog

section
variable {q : Queue} {r : CursorRecord}

theorem RoomMade.of_room (room : q.ring.length ≠ 64) : RoomMade q r r where
  settings := rfl
  attention := rfl
  timer := rfl
  dropped drops := absurd drops.1 room
  kept _ := rfl
  moved _ full := absurd full room
  stayed _ := ⟨rfl, rfl, rfl⟩

theorem RoomMade.of_discard {d : Entry} (full : q.ring.length = 64) (oldest : q.ring.head? = some d) :
    RoomMade q r (r.discard d) := by
  by_cases at_d : r.cursor = d.seq
  · by_cases hit : matchesFilter r.settings.filter d.content = true
    · have discards : r.discard d =
          ({ r with cursor := nextSeq d.seq, missed := min 255 (r.missed + 1) } : CursorRecord).setBacklog
            (r.backlog - 1) := by
        simp only [CursorRecord.discard, if_pos at_d, if_pos hit]
        rfl
      rw [discards]
      refine ⟨rfl, rfl, rfl, fun _ => ?_, fun stays => ?_, fun e _ first _ => ?_, fun away => ?_⟩
      · exact CursorRecord.setBacklog_lagging _ _
      · exact absurd ⟨full, d, oldest, at_d, hit⟩ stays
      · obtain rfl := Option.some.inj (oldest.symm.trans first)
        rw [if_pos hit, if_pos hit]
        exact ⟨rfl, rfl, rfl⟩
      · exact absurd at_d (away.resolve_left (not_not.2 full) d oldest)
    · have discards : r.discard d = { r with cursor := nextSeq d.seq } := by
        simp only [CursorRecord.discard, if_pos at_d, if_neg hit]
      rw [discards]
      refine ⟨rfl, rfl, rfl, fun drops => ?_, fun _ => rfl, fun e _ first _ => ?_, fun away => ?_⟩
      · obtain ⟨-, e, first, -, hit'⟩ := drops
        obtain rfl := Option.some.inj (oldest.symm.trans first)
        exact absurd hit' hit
      · obtain rfl := Option.some.inj (oldest.symm.trans first)
        rw [if_neg hit, if_neg hit]
        exact ⟨rfl, rfl, rfl⟩
      · exact absurd at_d (away.resolve_left (not_not.2 full) d oldest)
  · have discards : r.discard d = r := by simp only [CursorRecord.discard, if_neg at_d]
    have away : ∀ e, q.ring.head? = some e → r.cursor ≠ e.seq := fun e first =>
      Option.some.inj (oldest.symm.trans first) ▸ at_d
    rw [discards]
    refine ⟨rfl, rfl, rfl, fun drops => ?_, fun _ => rfl, fun e _ first at_e => ?_, fun _ => ⟨rfl, rfl, rfl⟩⟩
    · obtain ⟨-, e, first, at_e, -⟩ := drops
      exact absurd at_e (away e first)
    · exact absurd at_e (away e first)

theorem Queue.makeRoom_cursor (h : q.RingOk) (l : Link) :
    RoomMade q (q.cursors.get l) (q.makeRoom.cursors.get l) := by
  rcases Queue.makeRoom_cases h with ⟨room, made⟩ | ⟨d, f, rest, full, oldest, -, made⟩
  · rw [made]
    exact .of_room (by omega)
  · rw [made, PerLink.get_map]
    exact .of_discard full (by rw [oldest, List.head?_cons])

theorem Queue.makeRoom_ring (h : q.RingOk) :
    q.makeRoom.ring = if q.ring.length = 64 then q.ring.drop 1 else q.ring := by
  rcases Queue.makeRoom_cases h with ⟨room, made⟩ | ⟨d, f, rest, full, oldest, -, made⟩
  · rw [made, if_neg (by omega)]
  · rw [made, if_pos full, oldest, List.drop_one, List.tail_cons]

end

/-- Counting an entry touches backlog and `lagging` alone (R85, R99). -/
theorem CursorRecord.count_fields (e : Entry) (r : CursorRecord) :
    ((r.count e).cursor = r.cursor ∧ (r.count e).missed = r.missed ∧ (r.count e).settings = r.settings ∧
      (r.count e).attention = r.attention ∧ (r.count e).gatherAt = r.gatherAt) ∧
    (r.count e).backlog = r.backlog + (if matchesFilter r.settings.filter e.content = true then 1 else 0) ∧
    (matchesFilter r.settings.filter e.content = true →
      LaggingAfter r.lagging (r.count e).backlog (r.count e).lagging) ∧
    (¬matchesFilter r.settings.filter e.content = true → (r.count e).lagging = r.lagging) := by
  unfold CursorRecord.count
  split_ifs with hit
  · exact ⟨⟨rfl, rfl, rfl, rfl, rfl⟩, rfl, fun _ => r.setBacklog_lagging _, fun miss => absurd hit miss⟩
  · exact ⟨⟨rfl, rfl, rfl, rfl, rfl⟩, rfl, fun hit' => absurd hit' hit, fun _ => rfl⟩

/-- Settles O39: room made, the entry counted, then attention and timer, one after the other. -/
theorem postingAppendsAndDiscards : Obligations.PostingAppendsAndDiscards := by
  unfold Obligations.PostingAppendsAndDiscards
  intro q tick c ringOk full e
  refine ⟨rfl, congrArg (· ++ [e]) (Queue.makeRoom_ring ringOk), fun l => ?_⟩
  intro r r' hits added drops
  have made := Queue.makeRoom_cursor ringOk l
  have posted : r' = ((q.makeRoom.cursors.get l).count e).refresh tick (q.post tick c).ring := q.post_cursor tick c l
  clear_value r'
  subst posted
  generalize q.makeRoom.cursors.get l = m at made ⊢
  obtain ⟨⟨cCursor, cMissed, cSettings, cAttention, cTimer⟩, cBacklog, cHit, cMiss⟩ := m.count_fields e
  rw [made.settings] at cBacklog cHit cMiss
  obtain ⟨cursor, backlog, missed, lagging, settings⟩ := (m.count e).refresh_fields tick (q.post tick c).ring
  have attention := (m.count e).refresh_attention tick (q.post tick c).ring
  rw [cAttention, cTimer, made.attention, made.timer] at attention
  rw [cursor, backlog, missed, lagging, settings, cCursor, cMissed, cSettings, cBacklog]
  refine ⟨made.settings, ⟨m.lagging, made.dropped, made.kept, fun hit => cBacklog ▸ cHit hit, cMiss⟩, attention,
    fun d isFull oldest at_d => ?_, fun away => ?_⟩
  · obtain ⟨moved, missed, backlog⟩ := made.moved d isFull oldest at_d
    exact ⟨moved, missed, congrArg (· + added) backlog⟩
  · obtain ⟨stayed, missed, backlog⟩ := made.stayed away
    exact ⟨stayed, missed, congrArg (· + added) backlog⟩

/-! ### Filters -/

theorem Condition.passes_iff (least : Level) (x : Condition) :
    x.passes least = true ↔ x = .unknown ∨ ∃ y, x = .level y ∧ least.rank ≤ y.rank := by
  cases x <;> simp [Condition.passes]

/-- Settles O40: each kind of entry against the tests it has to pass. -/
theorem matchingFollowsTheFilter : Obligations.MatchingFollowsTheFilter := by
  unfold Obligations.MatchingFollowsTheFilter
  intro f c kind zone passes
  cases c with
  | start cause source => simp [matchesFilter]
  | level z old new held projected floor reason g td =>
    simp only [matchesFilter, Content.passesLevel, Content.kindCode, Content.zone?, Bool.and_eq_true, Bool.or_eq_true,
      Condition.passes_iff, and_assoc]
    rfl
  | config subject l =>
    cases subject <;> simp [matchesFilter, Content.passesLevel, Content.kindCode, Content.zone?, maskHas, kind, zone]
  | _ => simp [matchesFilter, Content.passesLevel, Content.kindCode, Content.zone?, maskHas, kind, zone]

/-! ### Requests at one cursor record -/

/-- A request whose owner writes its link's cursor record: the record stands, with the response on the link. -/
theorem serveRequest_cursor {l : Link} {i : Instr} {k : RequestKind} {act : State → Answer} {a : Answer}
    {r : CursorRecord} {s : State} (takes : Takes l i s) (answers : act s = a) (state : a.state = s.setCursor l r) :
    ∃ t, serveRequest l k i act s = .next t ∧ ChangesOnly [.queue, .links] s t ∧ OnlyCursor l s t ∧
      t.cursor l = r ∧ Replies l k.code a.status a.body s t := by
  obtain ⟨t, served, responds, replies⟩ := serveRequest_acted takes k answers (by rw [state]; rfl)
  rw [state] at responds
  have queue : t.queue = (s.setCursor l r).queue := responds .queue (by decide)
  have cursor : ∀ m, t.cursor m = (s.setCursor l r).cursor m := fun m => congrArg (fun q => q.cursors.get m) queue
  refine ⟨t, served, ((s.setCursor_changesOnly l r).trans responds).mono (by decide),
    ⟨by rw [queue]; rfl, by rw [queue]; rfl, fun m hm => ?_⟩, ?_, replies⟩
  · rw [cursor, State.setCursor_cursor_other _ _ _ hm]
  · rw [cursor, State.setCursor_cursor_self]

section
variable {l : Link} {s : State}

theorem answerEventsFetch_fetches {n : Byte} (least : 1 ≤ n.toNat) (most : n.toNat ≤ 4) :
    answerEventsFetch l n s =
      { state := s.fetch l n.toNat, status := .done,
        body := [byteOf (s.scan l n.toNat).1.length, byteOf (s.cursor l).missed,
            byteOf ((s.cursor l).backlog - (s.scan l n.toNat).1.length)] ++
          (s.scan l n.toNat).1.flatMap Entry.bytes } := by
  have backlog : ((s.fetch l n.toNat).cursor l).backlog = (s.cursor l).backlog - (s.scan l n.toNat).1.length := by
    rw [State.fetch_setCursor, State.setCursor_cursor_self]
    exact (CursorRecord.refresh_fields _ _ _).2.1
  rw [answerEventsFetch, if_pos ((withinNat_iff ..).2 ⟨least, most⟩), ← backlog]

/-- What a fetch collects and leaves of what is ahead of its cursor (R91, R92). -/
theorem State.scan_spec (l : Link) (n : Nat) (s : State) :
    ∃ passed, fromCursor s.queue.ring (s.cursor l).cursor = passed ++ (s.scan l n).2 ∧
      (s.scan l n).1 = passed.filter (fun e => matchesFilter (s.cursor l).settings.filter e.content) ∧
      (s.scan l n).1 = ((fromCursor s.queue.ring (s.cursor l).cursor).filter
        (fun e => matchesFilter (s.cursor l).settings.filter e.content)).take n ∧
      ((s.scan l n).1.length < n → (s.scan l n).2 = []) := scanMatching_spec _ _ _

/-- A fetch that is full passed a matching entry last. -/
theorem State.scan_full {n : Nat} {passed : List Entry} (positive : 1 ≤ n)
    (ahead : fromCursor s.queue.ring (s.cursor l).cursor = passed ++ (s.scan l n).2)
    (full : (s.scan l n).1.length = n) :
    ∃ e, passed.getLast? = some e ∧ matchesFilter (s.cursor l).settings.filter e.content = true := by
  obtain ⟨n, rfl⟩ := Nat.exists_eq_add_of_le' positive
  obtain ⟨front, e, hit, stops⟩ := scanMatching_stops_on_match _ full
  have same : passed = front ++ [e] := by
    refine List.append_cancel_right (bs := (s.scan l (n + 1)).2) (ahead.symm.trans (stops.trans ?_))
    rw [List.append_assoc, List.singleton_append]
    rfl
  exact ⟨e, by rw [same, List.getLast?_concat], hit⟩

end

/-- Settles O41: an entry's bytes, what is ahead of a cursor, and the scan with the cursor record it leaves. -/
theorem fetchReturnsTheNextMatchingEntries : Obligations.FetchReturnsTheNextMatchingEntries := by
  unfold Obligations.FetchReturnsTheNextMatchingEntries
  refine ⟨fun e => (entryBytes_lie e).fields, fun ring cursor => ⟨?_, fromCursor_eq_nil⟩, ?_⟩
  · rintro before e after rfl at_e first
    exact fromCursor_append at_e first
  · intro l n s takes least most r ahead hits
    obtain ⟨t, served, frame, only, cursor, replies⟩ :=
      serveRequest_cursor (k := .eventsFetch) takes (answerEventsFetch_fetches least most) (s.fetch_setCursor l _)
    obtain ⟨passed, passes, got, first, short⟩ := s.scan_spec l n.toNat
    obtain ⟨at_, backlog, missed, lagging, settings⟩ := (s.fetched l n.toNat).refresh_fields s.tick s.queue.ring
    refine ⟨t, (s.scan l n.toNat).1, passed, (s.scan l n.toNat).2, served, frame, only, passes, got, first,
      State.scan_full least passes, short, ?_, ?_, ?_, ?_, ?_, ?_, replies⟩
    · rw [cursor, at_]
      unfold State.fetched cursorAt
      cases (s.scan l n.toNat).2 <;> rfl
    · exact cursor ▸ missed
    · exact cursor ▸ backlog
    · exact cursor ▸ settings
    · rw [cursor, lagging]
      exact CursorRecord.setBacklog_lagging _ _
    · rw [cursor]
      exact (s.fetched l n.toNat).refresh_attention s.tick s.queue.ring

/-! ### EVENTS SEEK -/

section
variable {l : Link} {target : Byte} {seq : Half} {s : State}

/-- The number of matching entries from a cursor on, as the statements spell it (R90). -/
theorem countMatching_eq (ring : List Entry) (f : Filter) (cursor : Nat) :
    countMatching ring f cursor = ((fromCursor ring cursor).filter (fun e => matchesFilter f e.content)).length :=
  List.countP_eq_length_filter

/-- A seek that is placed: the cursor record counted afresh at its new place, and the answer (R93, R94). -/
theorem eventsSeek_placed (takes : Takes l (.eventsSeek l target seq) s) {cursor missed : Nat} {o : SeekOutcome}
    (place : s.queue.seekPlace target seq = some (cursor, o))
    (reported : missed = if o = .older then 0 else (s.cursor l).missed) :
    let count := ((fromCursor s.queue.ring cursor).filter
      (fun e => matchesFilter (s.cursor l).settings.filter e.content)).length
    ∃ t, exec (.eventsSeek l target seq) s = .next t ∧ ChangesOnly [.queue, .links] s t ∧ OnlyCursor l s t ∧
      (t.cursor l).cursor = cursor ∧ (t.cursor l).missed = missed ∧ (t.cursor l).settings = (s.cursor l).settings ∧
      (t.cursor l).backlog = count ∧ LaggingAfter (s.cursor l).lagging count (t.cursor l).lagging ∧
      AttentionAfter s.tick s.queue.ring (s.cursor l).attention (s.cursor l).gatherAt (t.cursor l) ∧
      Replies l 0x41 .done ([o.code] ++ halfOf cursor ++ [byteOf count, byteOf missed]) s t := by
  intro count
  subst reported
  have counts : countMatching s.queue.ring (s.cursor l).settings.filter cursor = count := countMatching_eq ..
  obtain ⟨at_, backlog, missed, lagging, settings⟩ := (s.sought l cursor o).refresh_fields s.tick s.queue.ring
  have answers : answerEventsSeek l target seq s =
      { state := s.seek l cursor o, status := .done,
        body := [o.code] ++ halfOf cursor ++
          [byteOf count, byteOf (if o = SeekOutcome.older then 0 else (s.cursor l).missed)] } := by
    simp only [answerEventsSeek, place, State.seek_setCursor, State.setCursor_cursor_self, at_, backlog, missed]
    rw [← counts]
    rfl
  obtain ⟨t, served, frame, only, record, replies⟩ :=
    serveRequest_cursor (k := .eventsSeek) takes answers (s.seek_setCursor l cursor o)
  refine ⟨t, served, frame, only, ?_⟩
  rw [record, at_, backlog, missed, lagging, settings]
  refine ⟨rfl, rfl, rfl, counts, ?_, (s.sought l cursor o).refresh_attention s.tick s.queue.ring, replies⟩
  rw [← counts]
  exact CursorRecord.setBacklog_lagging _ _

end

/-- Settles O42: the distances, then each target's place with the cursor record it leaves. -/
theorem seekPlacesTheCursor : Obligations.SeekPlacesTheCursor := by
  unfold Obligations.SeekPlacesTheCursor
  refine ⟨fun n => rfl, fun s d least most near => seqDistance_iterate ⟨least, most⟩ near, ?_⟩
  intro l target seq s takes ok q r d count placed
  obtain ⟨ringOk, -⟩ := ok
  refine ⟨fun oldest e first => ?_, fun newest => ?_,
    fun named given => ⟨fun near => ⟨?_, ?_⟩, fun gone near e first => ?_, fun far => ?_⟩⟩
  · refine eventsSeek_placed takes (o := .oldest) ?_ rfl
    rw [Queue.seekPlace, if_pos oldest, Queue.oldest_of_head first]
  · refine eventsSeek_placed takes (o := .newest) ?_ rfl
    subst newest
    rfl
  · refine eventsSeek_placed takes (o := .held) ?_ rfl
    rw [Queue.seekPlace_seq named given, if_pos near]
  · exact Queue.RingOk.held_of_distance ringOk (half_range given) near
  · refine eventsSeek_placed takes (o := .older) ?_ rfl
    rw [Queue.seekPlace_seq named given, if_neg (not_lt.2 gone), if_pos near, Queue.oldest_of_head first]
  · obtain ⟨-, most, -⟩ := ringOk
    change 32768 ≤ seqDistance s.queue.newest seq.toNat at far
    have nowhere : s.queue.seekPlace target seq = none := by
      rw [Queue.seekPlace_seq named given, if_neg (by omega), if_neg (by omega)]
    exact serveRequest_refused takes .eventsSeek _ .badArg [] (by rw [answerEventsSeek, nowhere]; rfl)

/-! ### LINK SET and the gather timer -/

/-- Level codes 0 to 3 are CLEAR, WATCH, WARN and WET (R168). -/
theorem levelOf_eq_some {b : Byte} {x : Level}
    (h : (b.toNat = 0 ∧ x = .clear) ∨ (b.toNat = 1 ∧ x = .watch) ∨ (b.toNat = 2 ∧ x = .warn) ∨
      (b.toNat = 3 ∧ x = .wet)) : levelOf b = some x := by
  rcases h with ⟨code, rfl⟩ | ⟨code, rfl⟩ | ⟨code, rfl⟩ | ⟨code, rfl⟩
  · obtain rfl : b = 0 := BitVec.eq_of_toNat_eq code
    rfl
  · obtain rfl : b = 1 := BitVec.eq_of_toNat_eq code
    rfl
  · obtain rfl : b = 2 := BitVec.eq_of_toNat_eq code
    rfl
  · obtain rfl : b = 3 := BitVec.eq_of_toNat_eq code
    rfl

theorem linkSettingsOf_eq_some {mask level : Byte} {kinds gather : Half} {x : Level} (read : levelOf level = some x)
    (eleven : kinds.toNat < 2048) (most : gather.toNat ≤ 2000) :
    linkSettingsOf mask kinds level gather =
      some { filter := { zoneMask := mask, kinds := kinds.setWidth 11, minLevel := x }, gatherMs := gather.toNat } := by
  simp [linkSettingsOf, read, eleven, linkInRange, withinNat, most]

/-- `lagging` after a recount, in one expression (R99). -/
theorem CursorRecord.setBacklog_eq (r : CursorRecord) (n : Nat) :
    r.setBacklog n =
      { r with backlog := n, lagging := decide (48 ≤ n) || (r.lagging && decide (32 ≤ n)) } := by
  unfold CursorRecord.setBacklog
  congr 1
  split_ifs with above below
  · simp [above]
  · simp [above, not_le.2 below]
  · simp [above, not_lt.1 below]

/-- Settles O43: the settings read, the record counted afresh under them, and the posting. -/
theorem linkSetWritesTheFilter : Obligations.LinkSetWritesTheFilter := by
  unfold Obligations.LinkSetWritesTheFilter
  intro l mask kinds level gather s x takes eleven most codes r settings count recounted
  have read : linkSettingsOf mask kinds level gather = some settings :=
    linkSettingsOf_eq_some (levelOf_eq_some codes) eleven most
  have answers : answerLinkSet l mask kinds level gather s =
      { state := s.writeLink l settings, status := .done,
        body := [byteOf ((s.writeLink l settings).cursor l).backlog] } := by
    simp only [answerLinkSet, read]
  have counted : ({ r with settings := settings } : CursorRecord).recount s.queue.ring = recounted := by
    rw [CursorRecord.recount, CursorRecord.setBacklog_eq, countMatching_eq]
  obtain ⟨t, served, responds, replies⟩ :=
    serveRequest_acted takes .linkSet answers ((s.writeLink_changesOnly l settings).same .links (by decide))
  have queue : t.queue = (s.writeLink l settings).queue := responds .queue (by decide)
  have cursor : t.cursor l = (s.writeLink l settings).cursor l := congrArg (fun q => q.cursors.get l) queue
  refine ⟨t, served, ((s.writeLink_changesOnly l settings).trans responds).mono (by decide), ?_, cursor ▸ replies⟩
  rw [queue, State.writeLink, counted]
  rfl

/-- Settles O44: the expiry acts when it is due and not before. -/
theorem gatherTimerExpiryAssertsAttention : Obligations.GatherTimerExpiryAssertsAttention := by
  unfold Obligations.GatherTimerExpiryAssertsAttention
  intro l s notHeld r
  have runs : exec (.gatherTimerExpiry l) s =
      .next (if timerDue s.tick r.gatherAt then s.setCursor l r.gatherExpire else s) :=
    congrArg Host.Outcome.next (State.unlessHeld_of s _ notHeld)
  refine ⟨fun due running past => ?_, fun early => ?_⟩
  · rw [runs, running, timerDue_some, if_pos (decide_eq_true past)]
    rfl
  · rw [runs, if_neg]
    rcases early with stopped | ⟨due, running, ahead⟩
    · simp [stopped]
    · simpa [running] using ahead

end Sys2Proof.Machine
end

/-! ## The operations of an output -/

section
/-!
SUPPORT. What one output's record and the entries posted are after each operation of the output unit.
-/

namespace Sys2Proof.Machine

/-! ### Turns -/

section
variable (r : OutRecord) (now : Word) (nowMs : Nat)

/-- A turn ON written out (R118, R123). -/
theorem OutRecord.turnOn_eq :
    r.turnOn now nowMs =
      { r with
        outState := if r.config.minOnS = 0 then .onFree else .onHeld
        holdStart := if r.config.minOnS = 0 then none else some now
        blink :=
          if r.config.mode = .blink then
            some { onPhase := true, expiry := (nowMs + r.config.blinkOn * 100) % 4294967296000 }
          else none
        pin := pinLevel r.config true } := by
  rcases mode : r.config.mode <;> by_cases free : r.config.minOnS = 0 <;>
    simp [OutRecord.turnOn, OutRecord.startBlink, OutRecord.setPin, OutRecord.pinActive, OutState.isOn, mode, free,
      msAfter, msWrap]

/-- A turn OFF written out (R118, R123). -/
theorem OutRecord.turnOff_eq :
    r.turnOff now =
      { r with
        outState := if r.config.minOffS = 0 then .offFree else .offHeld
        holdStart := if r.config.minOffS = 0 then none else some now
        blink := none
        pin := pinLevel r.config false } := by
  by_cases free : r.config.minOffS = 0 <;>
    simp [OutRecord.turnOff, OutRecord.setPin, OutRecord.pinActive, OutState.isOn, free]

variable {r}

/-- ON wanted turns an output ON from OFF_FREE, and a safety output from OFF_HELD too (R118, R120). -/
theorem OutRecord.act_turnsOn (wanted : r.wanted = true)
    (leaves : r.outState = .offFree ∨ (r.outState = .offHeld ∧ r.config.safety = true)) :
    r.act now nowMs = (r.turnOn now nowMs, some true) := by
  rcases leaves with free | ⟨held, safety⟩
  · simp only [OutRecord.act, free, wanted]
  · simp only [OutRecord.act, held, wanted, safety, if_true]

/-- OFF wanted turns an output OFF from ON_FREE (R118). -/
theorem OutRecord.act_turnsOff (wanted : r.wanted = false) (free : r.outState = .onFree) :
    r.act now nowMs = (r.turnOff now, some false) := by
  simp only [OutRecord.act, free, wanted]

/-- An output ON stays so while ON is wanted, and OFF_HELD waits for its time but at a safety output (R118, R120). -/
theorem OutRecord.act_stays_of_wanted (wanted : r.wanted = true)
    (stays : r.outState = .onHeld ∨ r.outState = .onFree ∨ (r.outState = .offHeld ∧ r.config.safety = false)) :
    r.act now nowMs = (r, none) := by
  rcases stays with held | free | ⟨held, exposed⟩
  · simp only [OutRecord.act, held]
  · simp only [OutRecord.act, free, wanted]
  · simp [OutRecord.act, held, wanted, exposed]

/-- An output OFF stays so while OFF is wanted, and ON_HELD waits for its time (R118). -/
theorem OutRecord.act_stays_of_unwanted (wanted : r.wanted = false)
    (stays : r.outState = .offFree ∨ r.outState = .offHeld ∨ r.outState = .onHeld) : r.act now nowMs = (r, none) := by
  rcases stays with free | held | held
  · simp only [OutRecord.act, free, wanted]
  · simp only [OutRecord.act, held, wanted]
  · simp only [OutRecord.act, held]

variable (r)

/-- An act writes state, hold, blink phase and pin alone. -/
theorem OutRecord.act_writes :
    ∃ outState holdStart blink pin, (r.act now nowMs).1 =
      { r with outState := outState, holdStart := holdStart, blink := blink, pin := pin } := by
  rcases r.act_cases now nowMs with ⟨e, -⟩ | ⟨e, -⟩ | e <;> rw [e] <;> exact ⟨_, _, _, _, rfl⟩

@[simp] theorem OutRecord.act_config : (r.act now nowMs).1.config = r.config := by
  obtain ⟨_, _, _, _, e⟩ := r.act_writes now nowMs
  rw [e]

@[simp] theorem OutRecord.act_demand : (r.act now nowMs).1.demand = r.demand := by
  obtain ⟨_, _, _, _, e⟩ := r.act_writes now nowMs
  rw [e]

@[simp] theorem OutRecord.act_winner : (r.act now nowMs).1.winner = r.winner := by
  obtain ⟨_, _, _, _, e⟩ := r.act_writes now nowMs
  rw [e]

@[simp] theorem OutRecord.act_wanted : (r.act now nowMs).1.wanted = r.wanted := by
  obtain ⟨_, _, _, _, e⟩ := r.act_writes now nowMs
  rw [e]

end

/-! ### The pin -/

/-- Step 6 of OUT SET written out: a new on phase while ON in BLINK mode, and the pin at the logical state (R121,
R123). -/
theorem OutRecord.restartPin_eq (nowMs : Nat) (r : OutRecord) :
    r.restartPin nowMs =
      { r with
        blink :=
          if r.outState.isOn = true ∧ r.config.mode = .blink then
            some { onPhase := true, expiry := (nowMs + r.config.blinkOn * 100) % 4294967296000 }
          else none
        pin := pinLevel r.config r.outState.isOn } := by
  rcases on : r.outState.isOn <;> rcases mode : r.config.mode <;>
    simp [OutRecord.restartPin, OutRecord.startBlink, OutRecord.setPin, OutRecord.pinActive, on, mode, msAfter, msWrap]

/-! ### One event at one output -/

/-- One output's record is `r`, these entries are posted, and nothing else has changed. -/
structure OutWritten (o : OutId) (r : OutRecord) (cs : List Content) (s t : State) : Prop where
  frame : ChangesOnly [.queue, .outs] s t
  only : OnlyOut o s t
  record : t.out o = r
  posts : Posts cs s t

theorem OutWritten.refl (o : OutId) (s : State) : OutWritten o (s.out o) [] s s :=
  ⟨.refl _ _, fun _ _ => rfl, rfl, .nil rfl⟩

theorem OutWritten.trans {o : OutId} {q r : OutRecord} {cs ds : List Content} {s t u : State}
    (h : OutWritten o q cs s t) (k : OutWritten o r ds t u) : OutWritten o r (cs ++ ds) s u where
  frame := (h.frame.trans k.frame).mono (by decide)
  only p hp := (k.only p hp).trans (h.only p hp)
  record := k.record
  posts := h.posts.trans k.posts (h.frame .tick (by decide))

theorem State.setOut_written (o : OutId) (r : OutRecord) (s : State) : OutWritten o r [] s (s.setOut o r) where
  frame := (s.setOut_changesOnly o r).mono (by decide)
  only _ hp := s.setOut_out_other o r hp
  record := s.setOut_out_self o r
  posts := .nil rfl

theorem State.post_outWritten (o : OutId) (c : Content) (s : State) : OutWritten o (s.out o) [c] s (s.post c) where
  frame := (s.post_changesOnly c).mono (by decide)
  only _ _ := rfl
  record := rfl
  posts := (Posts.nil rfl).post rfl c

section
variable {o : OutId} {r : OutRecord} {cs : List Content} {s u : State} (h : OutWritten o r cs s u)
include h

/-- The record written once more. -/
theorem OutWritten.set (q : OutRecord) : OutWritten o q cs s (u.setOut o q) := by
  simpa using h.trans (u.setOut_written o q)

/-- One more entry posted. -/
theorem OutWritten.post (c : Content) : OutWritten o r (cs ++ [c]) s (u.post c) := by
  have posted := h.trans (u.post_outWritten o c)
  rwa [h.record] at posted

theorem OutWritten.now : u.now = s.now := congrArg uptimeOf (h.frame .tick (by decide))

theorem OutWritten.nowMs : u.nowMs = s.nowMs := congrArg uptimeMsOf (h.frame .tick (by decide))

/-- The output acts on its wanted state (R118). -/
theorem OutWritten.act (cause : Option OutCause) :
    OutWritten o (r.act s.now s.nowMs).1 (cs ++ turnEntry o (cause.getD r.source) (r.act s.now s.nowMs).2) s
      (u.actOut o cause) := by
  obtain ⟨frame, only, record, posts⟩ := u.actOut_spec o cause
  rw [h.record, h.now, h.nowMs] at record posts
  exact h.trans ⟨frame, only, record, posts⟩

/-- The wanted state is formed again and acted on (R117, R118). -/
theorem OutWritten.settle (cause : Option OutCause) :
    OutWritten o (r.formWanted.act s.now s.nowMs).1
      (cs ++ turnEntry o (cause.getD r.formWanted.source) (r.formWanted.act s.now s.nowMs).2) s
      (u.settleOut o cause) := by
  unfold State.settleOut
  rw [h.record]
  exact (h.set r.formWanted).act cause

/-- The demand is formed again, then the wanted state, which is acted on (R109). -/
theorem OutWritten.demand :
    let formed := (r.formDemand s.zones).formWanted
    OutWritten o (formed.act s.now s.nowMs).1 (cs ++ turnEntry o formed.source (formed.act s.now s.nowMs).2) s
      (u.demandOut o) := by
  unfold State.demandOut
  rw [h.record, h.frame .zones (by decide)]
  exact (h.set (r.formDemand s.zones)).settle none

/-- The winner is formed again, then the wanted state, which is acted on (R110). -/
theorem OutWritten.winner (cause : Option OutCause) :
    let formed := (r.formWinner s.rank).formWanted
    OutWritten o (formed.act s.now s.nowMs).1
      (cs ++ turnEntry o (cause.getD formed.source) (formed.act s.now s.nowMs).2) s (u.winnerOut o cause) := by
  unfold State.winnerOut
  rw [h.record, h.frame .rank (by decide)]
  exact (h.set (r.formWinner s.rank)).settle cause

end

/-- Events at different outputs, one after the other, each as it would be alone. -/
theorem OutWritten.foldl {f : State → OutId → State} {g : OutRecord → OutRecord}
    {entries : OutId → OutRecord → List Content} {os : List OutId} (once : os.Nodup) {s : State}
    (acts : ∀ o u, ChangesOnly [.queue, .outs] s u → OutWritten o (g (u.out o)) (entries o (u.out o)) u (f u o)) :
    ChangesOnly [.queue, .outs] s (os.foldl f s) ∧ (∀ o ∈ os, (os.foldl f s).out o = g (s.out o)) ∧
      (∀ o, o ∉ os → (os.foldl f s).out o = s.out o) ∧
      Posts (os.flatMap (fun o => entries o (s.out o))) s (os.foldl f s) := by
  induction os generalizing s with
  | nil => exact ⟨.refl _ _, by simp, by simp, rfl⟩
  | cons o os ih =>
    obtain ⟨fresh, once⟩ := List.nodup_cons.1 once
    have first := acts o s (.refl _ _)
    have other : ∀ p ∈ os, (f s o).out p = s.out p := fun p hp => first.only p (fun e => fresh (e ▸ hp))
    obtain ⟨frame, written, kept, posts⟩ :=
      ih once (s := f s o) (fun p u k => acts p u ((first.frame.trans k).mono (by decide)))
    refine ⟨(first.frame.trans frame).mono (by decide), fun p hp => ?_, fun p hp => ?_, ?_⟩
    · rcases List.mem_cons.1 hp with rfl | hp
      · exact (kept p fresh).trans first.record
      · exact (written p hp).trans (by rw [other p hp])
    · obtain ⟨ne, hp⟩ := not_or.1 (List.mem_cons.not.1 hp)
      exact (kept p hp).trans (first.only p ne)
    · have same : os.flatMap (fun p => entries p ((f s o).out p)) = os.flatMap (fun p => entries p (s.out p)) :=
        List.flatMap_congr fun p hp => by rw [other p hp]
      rw [List.flatMap_cons, ← same]
      exact first.posts.trans posts (first.frame .tick (by decide))

/-! ### Requests and events that act -/

section
variable (s : State)

/-- A claim stored: the claim it replaces ends, then the winner acts (R111). -/
theorem State.storeClaim_written (l : Link) (o : OutId) (on : Bool) (minutes : Nat) :
    let claim : Claim := { on := on, expiry := secondsAfter s.now (60 * minutes) }
    let formed := (({ s.out o with claims := (s.out o).claims.set l (some claim) } : OutRecord).formWinner
      s.rank).formWanted
    OutWritten o (formed.act s.now s.nowMs).1
      ((if ((s.out o).claims.get l).isSome then [.claimEnd o l .replaced] else []) ++
        turnEntry o formed.source (formed.act s.now s.nowMs).2) s (s.storeClaim l o on minutes) := by
  intro claim formed
  unfold State.storeClaim
  have stored : ∀ {cs u}, OutWritten o (s.out o) cs s u →
      OutWritten o (formed.act s.now s.nowMs).1 (cs ++ turnEntry o formed.source (formed.act s.now s.nowMs).2) s
        ((u.setClaim o l (some claim)).winnerOut o none) := fun {cs u} h => by
    unfold State.setClaim
    rw [h.record]
    exact (h.set _).winner none
  split_ifs
  · exact stored (s.post_outWritten o _)
  · exact stored (.refl o s)

/-- A claim ended: CLAIM_END, then the winner acts (R112, R113). -/
theorem State.endClaim_written (o : OutId) (l : Link) (cause : ClaimEndCause) (turn : Option OutCause) :
    let formed := (({ s.out o with claims := (s.out o).claims.set l none } : OutRecord).formWinner s.rank).formWanted
    OutWritten o (formed.act s.now s.nowMs).1
      (.claimEnd o l cause :: turnEntry o (turn.getD formed.source) (formed.act s.now s.nowMs).2) s
      (s.endClaim o l cause turn) :=
  ((s.setOut_written o _).post (.claimEnd o l cause)).winner turn

/-- An OUT SET that passed: the configuration and its entry, the hold resized, the demand formed and acted on, and the
pin set (R121, R122). -/
theorem State.writeOut_written (l : Link) (o : OutId) (c : OutConfig) :
    let resized := ({ s.out o with config := c } : OutRecord).resizeHold s.now (s.out o).minTime
    let formed := (resized.formDemand s.zones).formWanted
    OutWritten o ((formed.act s.now s.nowMs).1.restartPin s.nowMs)
      (.config (.output o) l :: turnEntry o formed.source (formed.act s.now s.nowMs).2) s (s.writeOut l o c) := by
  intro resized formed
  have configured := (s.setOut_written o { s.out o with config := c }).post (.config (.output o) l)
  have demanded := (configured.set resized).demand
  unfold State.writeOut
  simp only [configured.record, configured.now]
  rw [demanded.record, demanded.nowMs]
  exact demanded.set _

/-- A LINK RANK that passed: the rank and its entry, then every output's winner acts (R116). -/
theorem State.writeRank_spec (l : Link) (rank : Rank) :
    let formed (o : OutId) := ((s.out o).formWinner rank).formWanted
    let acted (o : OutId) := (formed o).act s.now s.nowMs
    ChangesOnly [.rank, .queue, .outs] s (s.writeRank l rank) ∧ (s.writeRank l rank).rank = rank ∧
      (∀ o, (s.writeRank l rank).out o = (acted o).1) ∧
      Posts (.config .rank l :: (List.finRange 4).flatMap (fun o => turnEntry o (formed o).source (acted o).2)) s
        (s.writeRank l rank) := by
  intro formed acted
  let ranked : State := { s with rank := rank }
  obtain ⟨frame, written, -, posts⟩ := OutWritten.foldl (s := ranked.post (.config .rank l))
    (f := fun u o => u.winnerOut o none) (g := fun r => ((r.formWinner rank).formWanted.act s.now s.nowMs).1)
    (entries := fun o r => turnEntry o (r.formWinner rank).formWanted.source
      ((r.formWinner rank).formWanted.act s.now s.nowMs).2) (List.nodup_finRange 4) (fun o u k => by
        have acts := (OutWritten.refl o u).winner none
        rwa [show u.rank = rank from k .rank (by decide),
          show u.now = s.now from congrArg uptimeOf (k .tick (by decide)),
          show u.nowMs = s.nowMs from congrArg uptimeMsOf (k .tick (by decide))] at acts)
  exact ⟨s.writeRank_changesOnly l rank, frame .rank (by decide), fun o => written o (List.mem_finRange o),
    posts⟩

end

/-! ### Events that are answered -/

/-- A request whose owner makes an event at an output: the event stands whole, with the response on its link. -/
theorem serveRequest_outWritten {l : Link} {i : Instr} {k : RequestKind} {act : State → Answer} {a : Answer} {o : OutId}
    {r : OutRecord} {cs : List Content} {s : State} (takes : Takes l i s) (answers : act s = a)
    (written : OutWritten o r cs s a.state) :
    ∃ t, serveRequest l k i act s = .next t ∧ ChangesOnly [.queue, .outs, .links] s t ∧ OnlyOut o s t ∧
      t.out o = r ∧ Posts cs s t ∧ Replies l k.code a.status a.body s t := by
  obtain ⟨t, served, responds, replies⟩ := serveRequest_acted takes k answers (written.frame .links (by decide))
  have outs : t.outs = a.state.outs := responds .outs (by decide)
  exact ⟨t, served, (written.frame.trans responds).mono (by decide),
    fun p hp => (State.out_congr outs p).trans (written.only p hp), (State.out_congr outs o).trans written.record,
    (responds .queue (by decide) : _ = a.state.queue).trans written.posts, replies⟩

end Sys2Proof.Machine
end

/-! ## Output records in order -/

section
/-!
PROOFS. An act settles every record whose winner and wanted state are formed, and every command writes output records
that were formed and acted on so, or leaves all but the notices they were given (R105, R110, R117 to R120, R123).
-/

namespace Sys2Proof.Machine

/-! ### A record formed, settled and shown on its pin -/

/-- A record that can act: its configuration in range, winner and wanted state formed, a hold exactly where it is held
(R106, R107, R110, R117, R119). -/
structure OutRecord.Formed (rank : Rank) (r : OutRecord) : Prop where
  range : outInRange r.config = true
  winner : r.winner = winnerOf rank r.claims
  wanted : (r.wanted, r.overridden) = r.wantedOf
  hold : r.holdStart.isSome = true ↔ r.outState.isHeld = true

/-- A record that has acted: no free state against the wanted state, and a safety output ON where ON is wanted (R118,
R120). -/
structure OutRecord.Settled (rank : Rank) (r : OutRecord) : Prop extends r.Formed rank where
  off : r.outState = .offFree → r.wanted = false
  on : r.outState = .onFree → r.wanted = true
  safe : r.config.safety = true → r.wanted = true → r.outState.isOn = true

/-- A blink phase exactly while ON in BLINK mode, and the pin at its level unless the reset pin is held (R123, R176). -/
structure OutRecord.Shown (held : Bool) (r : OutRecord) : Prop where
  blink : r.blink.isSome = true ↔ r.outState.isOn = true ∧ r.config.mode = .blink
  pin : held = false → r.pin = pinLevel r.config r.pinActive

/-- A safety output with its demand ON wants ON, with or without a claim (R117). -/
theorem OutRecord.wantedOf_of_safety {r : OutRecord} (safety : r.config.safety = true) (demand : r.demand = true) :
    r.wantedOf.1 = true := by
  rcases claim : r.winningClaim with - | c
  · simp [OutRecord.wantedOf, claim, demand]
  · rcases on : c.on <;> simp [OutRecord.wantedOf, claim, on, safety, demand]

/-- R120's promise follows from the wanted state of a safety output. -/
theorem OutRecord.ok_iff (rank : Rank) (held : Bool) (r : OutRecord) :
    r.Ok rank held ↔ r.Settled rank ∧ r.Shown held := by
  constructor
  · rintro ⟨range, winner, wanted, hold, blink, off, on, safe, -, pin⟩
    exact ⟨⟨⟨range, winner, wanted, hold⟩, off, on, safe⟩, blink, pin⟩
  · rintro ⟨⟨⟨range, winner, wanted, hold⟩, off, on, safe⟩, blink, pin⟩
    refine ⟨range, winner, wanted, hold, blink, off, on, safe, fun safety demand => safe safety ?_, pin⟩
    exact (congrArg Prod.fst wanted).trans (OutRecord.wantedOf_of_safety safety demand)

/-! ### Acts -/

section
variable {rank : Rank} {held : Bool} {r : OutRecord} (now : Word) (nowMs : Nat)

theorem OutRecord.turnOn_shown : (r.turnOn now nowMs).Shown held := by
  rw [OutRecord.turnOn_eq]
  rcases mode : r.config.mode <;> by_cases free : r.config.minOnS = 0 <;>
    constructor <;> simp [OutRecord.pinActive, OutState.isOn, mode, free]

theorem OutRecord.turnOff_shown : (r.turnOff now).Shown held := by
  rw [OutRecord.turnOff_eq]
  by_cases free : r.config.minOffS = 0 <;> constructor <;> simp [OutRecord.pinActive, OutState.isOn, free]

/-- A turn sets the pin and the blink phase, and without a turn they stand. -/
theorem OutRecord.Shown.act (h : r.Shown held) : (r.act now nowMs).1.Shown held := by
  rcases r.act_cases now nowMs with ⟨e, -⟩ | ⟨e, -⟩ | e <;> rw [e]
  · exact OutRecord.turnOn_shown now nowMs
  · exact OutRecord.turnOff_shown now
  · exact h

/-- An act leaves no free state against the wanted state, and no safety output OFF against it (R118, R120). -/
theorem OutRecord.Formed.act (h : r.Formed rank) : (r.act now nowMs).1.Settled rank := by
  obtain ⟨range, winner, formed, hold⟩ := h
  rcases wanted : r.wanted
  · by_cases free : r.outState = .onFree
    · rw [OutRecord.act_turnsOff now nowMs wanted free, OutRecord.turnOff_eq]
      by_cases none : r.config.minOffS = 0 <;>
        exact ⟨⟨range, winner, formed, by simp [none, OutState.isHeld]⟩, fun _ => wanted, by simp [none],
          fun _ on => absurd (on.symm.trans wanted) (by decide)⟩
    · rw [OutRecord.act_stays_of_unwanted now nowMs wanted (by cases s : r.outState <;> simp_all)]
      exact ⟨⟨range, winner, formed, hold⟩, fun _ => wanted, fun on => absurd on free,
        fun _ on => absurd (on.symm.trans wanted) (by decide)⟩
  · by_cases leaves : r.outState = .offFree ∨ (r.outState = .offHeld ∧ r.config.safety = true)
    · rw [OutRecord.act_turnsOn now nowMs wanted leaves, OutRecord.turnOn_eq]
      by_cases none : r.config.minOnS = 0 <;>
        exact ⟨⟨range, winner, formed, by simp [none, OutState.isHeld]⟩, by simp [none], fun _ => wanted,
          fun _ _ => by simp [none, OutState.isOn]⟩
    · rw [OutRecord.act_stays_of_wanted now nowMs wanted (by cases s : r.outState <;> simp_all)]
      refine ⟨⟨range, winner, formed, hold⟩, fun off => absurd (.inl off) leaves, fun _ => wanted, fun safety _ => ?_⟩
      cases s : r.outState <;> simp_all [OutState.isOn]

theorem OutRecord.Formed.act_ok (h : r.Formed rank) (shown : r.Shown held) : (r.act now nowMs).1.Ok rank held :=
  (OutRecord.ok_iff ..).2 ⟨h.act now nowMs, shown.act now nowMs⟩

/-- Demand and wanted state formed again on a record in order, and acted on (R109). -/
theorem OutRecord.Ok.demanded (h : r.Ok rank held) (zones : Vector ZoneRecord 8) :
    ((r.formDemand zones).formWanted.act now nowMs).1.Ok rank held := by
  obtain ⟨settled, shown⟩ := (OutRecord.ok_iff ..).1 h
  exact OutRecord.Formed.act_ok now nowMs ⟨settled.range, settled.winner, rfl, settled.hold⟩ ⟨shown.blink, shown.pin⟩

/-- Claims written to a record in order, or another rank: winner and wanted state formed and acted on (R110, R116). -/
theorem OutRecord.Ok.claimed (h : r.Ok rank held) (claims : PerLink (Option Claim)) (other : Rank) :
    ((({ r with claims := claims } : OutRecord).formWinner other).formWanted.act now nowMs).1.Ok other held := by
  obtain ⟨settled, shown⟩ := (OutRecord.ok_iff ..).1 h
  exact OutRecord.Formed.act_ok now nowMs ⟨settled.range, rfl, rfl, settled.hold⟩ ⟨shown.blink, shown.pin⟩

/-- A hold given up leaves the logical state (R119). -/
theorem OutRecord.endHold_isOn (r : OutRecord) : r.endHold.outState.isOn = r.outState.isOn := by
  unfold OutRecord.endHold
  cases r.outState <;> rfl

theorem OutRecord.endHold_hold (r : OutRecord) :
    r.endHold.holdStart.isSome = true ↔ r.endHold.outState.isHeld = true := by
  unfold OutRecord.endHold
  cases r.outState <;> simp [OutState.isOn, OutState.isHeld]

/-- The minimum hold of a record in order ends, and it acts (R119). -/
theorem OutRecord.Ok.released (h : r.Ok rank held) : (r.endHold.act now nowMs).1.Ok rank held := by
  obtain ⟨settled, shown⟩ := (OutRecord.ok_iff ..).1 h
  have active : r.endHold.pinActive = r.pinActive := by
    unfold OutRecord.pinActive
    rw [r.endHold_isOn]
    rfl
  refine OutRecord.Formed.act_ok now nowMs ⟨settled.range, settled.winner, settled.wanted, r.endHold_hold⟩ ⟨?_, ?_⟩
  · rw [r.endHold_isOn]
    exact shown.blink
  · rw [active]
    exact shown.pin

/-! ### The other writes -/

/-- A hold resized, or not, under another configuration (R122). -/
theorem OutRecord.resizeHold_cases (before : Nat) :
    r.resizeHold now before = r.endHold ∨ r.resizeHold now before = r := by
  unfold OutRecord.resizeHold
  split_ifs
  · exact .inl rfl
  · exact .inr rfl

/-- The pin set anew shows whatever the record holds. -/
theorem OutRecord.restartPin_shown : (r.restartPin nowMs).Shown held := by
  rw [OutRecord.restartPin_eq]
  rcases on : r.outState.isOn <;> rcases mode : r.config.mode <;>
    constructor <;> simp [OutRecord.pinActive, on, mode]

/-- An accepted configuration written to a record in order (R121). -/
theorem OutRecord.Ok.configured (h : r.Ok rank held) {c : OutConfig} (range : outInRange c = true) (before : Nat)
    (zones : Vector ZoneRecord 8) :
    let resized := ({ r with config := c } : OutRecord).resizeHold now before
    ((((resized.formDemand zones).formWanted.act now nowMs).1).restartPin nowMs).Ok rank held := by
  intro resized
  obtain ⟨settled, -⟩ := (OutRecord.ok_iff ..).1 h
  have formed : (resized.formDemand zones).formWanted.Formed rank := by
    rcases OutRecord.resizeHold_cases (r := { r with config := c }) now before with e | e <;> simp only [resized, e]
    · exact ⟨range, settled.winner, rfl, OutRecord.endHold_hold _⟩
    · exact ⟨range, settled.winner, rfl, settled.hold⟩
  have acted := formed.act now nowMs
  refine (OutRecord.ok_iff ..).2 ⟨?_, OutRecord.restartPin_shown nowMs⟩
  rw [OutRecord.restartPin_eq]
  exact ⟨⟨acted.range, acted.winner, acted.wanted, acted.hold⟩, acted.off, acted.on, acted.safe⟩

/-- A blink phase followed by the other one (R123). -/
theorem OutRecord.Ok.nextPhase (h : r.Ok rank held) {b : Blink} (blinks : r.blink = some b) :
    (r.nextPhase nowMs b).Ok rank held := by
  obtain ⟨settled, shown⟩ := (OutRecord.ok_iff ..).1 h
  refine (OutRecord.ok_iff ..).2 ⟨⟨⟨settled.range, settled.winner, settled.wanted, settled.hold⟩, settled.off,
    settled.on, settled.safe⟩, ?_, fun _ => rfl⟩
  exact ⟨fun _ => shown.blink.1 (by simp [blinks]), fun _ => rfl⟩

/-- The notices an output has not taken are no part of its order. -/
theorem OutRecord.Ok.told (h : r.Ok rank held) (told : List ZoneId) :
    ({ r with told := told } : OutRecord).Ok rank held := h

/-- While the reset pin is held the pin is not asked for its level (R176). -/
theorem OutRecord.Ok.undriven (h : r.Ok rank held) (pin : PinLevel) :
    ({ r with pin := pin } : OutRecord).Ok rank true := by
  obtain ⟨settled, shown⟩ := (OutRecord.ok_iff ..).1 h
  exact (OutRecord.ok_iff ..).2 ⟨⟨⟨settled.range, settled.winner, settled.wanted, settled.hold⟩, settled.off,
    settled.on, settled.safe⟩, shown.blink, nofun⟩

/-- A freed output that a reset lets act on its demand (R126, R127). -/
theorem OutRecord.started_ok (range : outInRange r.config = true) (claims : r.claims = .all none)
    (winner : r.winner = none) (hold : r.holdStart = none) (steady : r.blink = none) (zones : Vector ZoneRecord 8) :
    (r.started zones now nowMs).Ok rank held := by
  rw [OutRecord.started_eq hold steady rfl]
  generalize demandOf zones r.config = on
  have unclaimed : winnerOf rank r.claims = none := by simp [winnerOf, claims]
  refine (OutRecord.ok_iff ..).2 ⟨⟨⟨range, winner.trans unclaimed.symm, ?_, ?_⟩, ?_, ?_, ?_⟩, ?_, ?_⟩
  · simp [OutRecord.wantedOf, OutRecord.winningClaim, winner]
  all_goals
    cases on <;> rcases mode : r.config.mode <;> by_cases free : r.config.minOnS = 0 <;>
      simp [OutState.isHeld, OutState.isOn, OutRecord.pinActive, mode, free]

end

end Sys2Proof.Machine
end

/-! ## Every command keeps the output records in order -/

section
/-!
PROOFS. The commands that leave output records alone but for notices, those that act on them, and the step (R105, R110,
R116, R118 to R123, R126, R127, R176).
-/

namespace Sys2Proof.Machine

/-! ### Outputs left alone -/

/-- Rank and reset pin are as before, and the output records too but for the notices given them (R65). -/
structure OutsKept (s t : State) : Prop where
  rank : t.rank = s.rank
  held : t.startup.resetHeld = s.startup.resetHeld
  record : ∀ o, ∃ told, t.out o = { s.out o with told := told }

theorem OutsKept.refl (s : State) : OutsKept s s := ⟨rfl, rfl, fun o => ⟨(s.out o).told, rfl⟩⟩

theorem OutsKept.trans {s t u : State} (h : OutsKept s t) (k : OutsKept t u) : OutsKept s u := by
  refine ⟨k.rank.trans h.rank, k.held.trans h.held, fun o => ?_⟩
  obtain ⟨_, first⟩ := h.record o
  obtain ⟨told, second⟩ := k.record o
  exact ⟨told, second.trans (by rw [first])⟩

/-- An operation that changes neither outputs, nor rank, nor start-up control. -/
theorem ChangesOnly.outsKept {ps : List Part} {s t : State} (frame : ChangesOnly ps s t) (ho : Part.outs ∉ ps)
    (hr : Part.rank ∉ ps) (hu : Part.startup ∉ ps) : OutsKept s t :=
  ⟨frame .rank hr, congrArg Startup.resetHeld (frame .startup hu),
    fun o => ⟨(s.out o).told, State.out_congr (frame .outs ho) o⟩⟩

/-- An operation that does no more to the outputs than to give them a zone's notice. -/
theorem ChangesOnly.outsTold {ps : List Part} {z : ZoneId} {told : Prop} {s t : State} (frame : ChangesOnly ps s t)
    (tells : Tells z told s t) (hr : Part.rank ∉ ps) (hu : Part.startup ∉ ps) : OutsKept s t := by
  refine ⟨frame .rank hr, congrArg Startup.resetHeld (frame .startup hu), fun o => ?_⟩
  by_cases h : told
  · exact ⟨_, (tells o).1 h⟩
  · exact ⟨(s.out o).told, (tells o).2 h⟩

theorem ZoneInformed.outsKept {z : ZoneId} {r : ZoneRecord} {cs : List Content} {told : Prop} {s t : State}
    (h : ZoneInformed z r cs told s t) : OutsKept s t := h.frame.outsTold h.tells (by decide) (by decide)

theorem OutsKept.outsOk {s t : State} (h : OutsKept s t) (ok : s.OutsOk) : t.OutsOk := by
  obtain ⟨complete, records⟩ := ok
  refine ⟨by rwa [h.rank], fun o => ?_⟩
  obtain ⟨told, record⟩ := h.record o
  rw [record, h.rank, h.held]
  exact (records o).told told

/-! ### Lines and zones -/

theorem State.takeEdge_changesOnly (n : LineId) (s : State) :
    ChangesOnly [.lines, .queue, .handed] s (s.takeEdge n) := by
  have follows := s.setLine_changesOnly n { s.line n with sampled := some (s.line n).pin }
  unfold State.takeEdge
  split_ifs
  · exact (follows.trans (State.referenceEdgeAt_spec n _).1).mono (by decide)
  · exact follows.mono (by decide)

theorem State.takeWaitingEdges_changesOnly (s : State) :
    ChangesOnly [.lines, .queue, .handed] s s.takeWaitingEdges := by
  refine ChangesOnly.foldl (fun s n => ?_) _ s
  split_ifs
  · exact s.takeEdge_changesOnly n
  · exact .refl _ s

section
variable (s : State)

theorem answerLineSet_outsKept (l : Link) (line : Byte) (b : LineBlock) :
    OutsKept s (answerLineSet l line b s).state := by
  have writes : ∀ n c, OutsKept s (s.writeLine l n c) := fun n c =>
    ((s.setLine_changesOnly n _).trans (State.post_changesOnly _ _)).outsKept (by decide) (by decide) (by decide)
  unfold answerLineSet
  split
  · exact .refl s
  · split
    · exact .refl s
    · split
      · exact .refl s
      · exact writes _ _

theorem acceptZoneSet_outsKept (l : Link) (z : ZoneId) (c : ZoneConfig) : OutsKept s (acceptZoneSet l z c s).state := by
  by_cases disabled : (s.zone z).status = .disabled
  · exact (acceptZoneSet_disabled l c disabled).1.outsKept
  · rw [acceptZoneSet_waits l c disabled]
    exact (s.setZone_changesOnly z _).outsKept (by decide) (by decide) (by decide)

theorem answerZoneSet_outsKept (l : Link) (zone : Byte) (b : ZoneBlock) :
    OutsKept s (answerZoneSet l zone b s).state := by
  unfold answerZoneSet
  split
  · exact .refl s
  · split
    · exact .refl s
    · split
      · exact .refl s
      · split
        · exact .refl s
        · exact acceptZoneSet_outsKept s l _ _

theorem answerZoneHold_outsKept (l : Link) (zone mode level : Byte) (minutes : Half) :
    OutsKept s (answerZoneHold l zone mode level minutes s).state := by
  unfold answerZoneHold
  split
  · exact .refl s
  · split
    · split
      · exact .refl s
      · exact (s.setHold_informed l _ _ _).outsKept
    · exact .refl s

theorem answerZoneRelease_outsKept (l : Link) (zone : Byte) : OutsKept s (answerZoneRelease l zone s).state := by
  unfold answerZoneRelease
  split
  · exact .refl s
  · split
    · exact .refl s
    · exact (s.endHold_informed _ _ l).outsKept

theorem answerZoneAck_outsKept (l : Link) (zone : Byte) (seq : Half) :
    OutsKept s (answerZoneAck l zone seq s).state := by
  unfold answerZoneAck
  split
  · exact .refl s
  · split
    · exact .refl s
    · split
      · exact .refl s
      · split
        · exact (s.clearLatch_informed l _ _).outsKept
        · exact .refl s

theorem State.evaluate_outsKept (z : ZoneId) (n : LineId) (c : Converted) : OutsKept s (s.evaluate z n c) := by
  by_cases ends : (stageOne z s).1.active.air ≠ some n ∨ (stageOne z s).1.status = .disabled
  · exact (State.evaluate_stops c ends).outsKept
  · rw [not_or, not_not] at ends
    have judged := State.evaluate_judges c ends.1 ends.2
    exact judged.frame.outsTold judged.tells (by decide) (by decide)

theorem State.takeCompletion_outsKept (c : Completion) : OutsKept s (s.takeCompletion c) := by
  unfold State.takeCompletion
  split
  · exact .refl s
  · split_ifs
    · exact .refl s
    · exact s.evaluate_outsKept _ _ _

theorem State.expireDeadline_outsKept (z : ZoneId) : OutsKept s (s.expireDeadline z) := by
  cases h : (s.zone z).status with
  | disabled =>
    rw [s.expireDeadline_disabled z h]
    exact (s.setZone_changesOnly z _).outsKept (by decide) (by decide) (by decide)
  | starting => exact (s.expireDeadline_turnsUnknown z (.inl h)).outsKept
  | active => exact (s.expireDeadline_turnsUnknown z (.inr h)).outsKept
  | unknown => exact (s.expireDeadline_unknown z h).outsKept

end

/-! ### Outputs that act -/

/-- A block read lies within the ranges of R106 and R107 (R121). -/
theorem outConfigOf_inRange {b : OutBlock} {c : OutConfig} (h : outConfigOf b = some c) : outInRange c = true := by
  obtain ⟨_, -, h⟩ := Option.bind_eq_some_iff.1 h
  obtain ⟨_, -, h⟩ := Option.bind_eq_some_iff.1 h
  obtain ⟨_, -, h⟩ := Option.bind_eq_some_iff.1 h
  obtain ⟨_, -, h⟩ := Option.bind_eq_some_iff.1 h
  obtain ⟨_, -, h⟩ := Option.bind_eq_some_iff.1 h
  obtain ⟨range, read⟩ := Option.ite_none_right_eq_some.1 h
  exact Option.some.inj read ▸ range

/-- A rank read names each link once (R115, R116). -/
theorem rankOf_complete {x y z : Byte} {rank : Rank} (h : rankOf x y z = some rank) : rankComplete rank = true := by
  obtain ⟨_, -, h⟩ := Option.bind_eq_some_iff.1 h
  obtain ⟨_, -, h⟩ := Option.bind_eq_some_iff.1 h
  obtain ⟨_, -, h⟩ := Option.bind_eq_some_iff.1 h
  obtain ⟨complete, read⟩ := Option.ite_none_right_eq_some.1 h
  exact Option.some.inj read ▸ complete

@[simp] theorem State.restartCleared_rank (l : Link) (s : State) : (s.restartCleared l).rank = s.rank := by
  simp only [State.restartCleared]

section
variable {s : State} (ok : s.OutsOk)
include ok

/-- An event at one output leaves them all in order where it leaves that one so. -/
theorem State.OutsOk.written {o : OutId} {r : OutRecord} {cs : List Content} {t : State} (h : OutWritten o r cs s t)
    (record : r.Ok s.rank s.startup.resetHeld) : t.OutsOk := by
  obtain ⟨complete, records⟩ := ok
  have rank : t.rank = s.rank := h.frame .rank (by decide)
  have startup : t.startup = s.startup := h.frame .startup (by decide)
  refine ⟨by rwa [rank], fun p => ?_⟩
  rw [rank, startup]
  by_cases here : p = o
  · rw [here, h.record]
    exact record
  · rw [h.only p here]
    exact records p

theorem State.writeOut_outsOk (l : Link) (o : OutId) {c : OutConfig} (range : outInRange c = true) :
    (s.writeOut l o c).OutsOk :=
  ok.written (s.writeOut_written l o c) ((ok.2 o).configured s.now s.nowMs range _ s.zones)

theorem State.storeClaim_outsOk (l : Link) (o : OutId) (on : Bool) (minutes : Nat) :
    (s.storeClaim l o on minutes).OutsOk :=
  ok.written (s.storeClaim_written l o on minutes) ((ok.2 o).claimed s.now s.nowMs _ s.rank)

theorem State.endClaim_outsOk (o : OutId) (l : Link) (cause : ClaimEndCause) (turn : Option OutCause) :
    (s.endClaim o l cause turn).OutsOk :=
  ok.written (s.endClaim_written o l cause turn) ((ok.2 o).claimed s.now s.nowMs _ s.rank)

theorem State.writeRank_outsOk (l : Link) {rank : Rank} (complete : rankComplete rank = true) :
    (s.writeRank l rank).OutsOk := by
  obtain ⟨frame, written, record, -⟩ := s.writeRank_spec l rank
  generalize s.writeRank l rank = t at frame written record ⊢
  have startup : t.startup = s.startup := frame .startup (by decide)
  refine ⟨by rwa [written], fun o => ?_⟩
  rw [record, written, startup]
  exact (ok.2 o).claimed s.now s.nowMs (s.out o).claims rank

/-- A zone's notice taken, in the mask or not (R109). -/
theorem State.taken_outsOk (z : ZoneId) (o : OutId) :
    let u := s.setOut o { s.out o with told := (s.out o).told.erase z }
    u.OutsOk ∧ (u.demandOut o).OutsOk := by
  have noticed := s.setOut_written o { s.out o with told := (s.out o).told.erase z }
  have record := (ok.2 o).told ((s.out o).told.erase z)
  exact ⟨ok.written noticed record, ok.written noticed.demand (record.demanded s.now s.nowMs s.zones)⟩

/-- A restart clears the outputs, which act on their demand (R127, R179). -/
theorem State.restartNow_outsOk (l : Link) : (s.restartNow l).OutsOk := by
  obtain ⟨complete, records⟩ := ok
  obtain ⟨frame, started, -⟩ := State.startOuts_spec (s.restartNow_eq l) (fun o => by simp [OutRecord.cleared])
  generalize s.restartNow l = t at frame started ⊢
  have rank : t.rank = s.rank := by
    simpa only [Part.Same, State.post_rank, State.restartCleared_rank] using frame .rank (by decide)
  refine ⟨by rwa [rank], fun o => ?_⟩
  obtain ⟨range, -⟩ := records o
  rw [started o, State.post_out_kept, State.restartCleared_out]
  exact OutRecord.started_ok (r := (s.out o).cleared) _ _ range rfl rfl rfl rfl _

theorem State.restartIfDue_outsOk : s.restartIfDue.OutsOk := by
  unfold State.restartIfDue
  split
  · split_ifs
    · exact State.restartNow_outsOk ok _
    · exact ok
  · exact ok

/-! ### The requests -/

/-- A request's answer decides what becomes of the outputs: the response touches link records alone. -/
theorem serveRequest_outsOk {l : Link} {k : RequestKind} {i : Instr} {act : State → Answer} {t : State}
    (h : serveRequest l k i act s = .next t) (acts : (act s).state.OutsOk) : t.OutsOk := by
  have responds : ∀ (u : State) (code : StatusCode) (b : List Byte), OutsKept u (u.respond l k.code code b) :=
    fun u code b => (u.respond_changesOnly l _ code b).outsKept (by decide) (by decide) (by decide)
  obtain rfl : s.unlessHeld (fun s => s.serve l k i act) = t := Host.Outcome.next.inj h
  unfold State.unlessHeld
  split_ifs
  · exact ok
  · change (s.serve l k i act).OutsOk
    rcases s.serve_cases l k i act with ⟨-, e⟩ | ⟨-, e⟩ | ⟨-, e⟩ | ⟨-, e⟩ | ⟨-, e⟩ <;> rw [e]
    · exact (responds _ _ _).outsOk acts
    · exact (responds _ _ _).outsOk ok
    · exact (responds _ _ _).outsOk ok
    · exact ((s.setLink_changesOnly l _).outsKept (by decide) (by decide) (by decide)).outsOk ok
    · exact ok

/-- A request whose owner leaves the outputs alone. -/
theorem serveRequest_outsOk_of_kept {l : Link} {k : RequestKind} {i : Instr} {act : State → Answer} {t : State}
    (h : serveRequest l k i act s = .next t) (kept : OutsKept s (act s).state) : t.OutsOk :=
  serveRequest_outsOk ok h (kept.outsOk ok)

theorem answerOutSet_outsOk (l : Link) (out : Byte) (b : OutBlock) :
    (answerOutSet l out b s).state.OutsOk := by
  unfold answerOutSet
  split
  · exact ok
  · split
    · exact ok
    next read => exact State.writeOut_outsOk ok l _ (outConfigOf_inRange read)

theorem answerOutClaim_outsOk (l : Link) (out x : Byte) (minutes : Half) :
    (answerOutClaim l out x minutes s).state.OutsOk := by
  unfold answerOutClaim
  split
  · exact ok
  · split
    · exact State.storeClaim_outsOk ok l _ _ _
    · exact ok

theorem answerOutDrop_outsOk (l : Link) (out : Byte) :
    (answerOutDrop l out s).state.OutsOk := by
  unfold answerOutDrop
  split
  · exact ok
  · split
    · exact ok
    · exact State.endClaim_outsOk ok _ l _ _

theorem answerLinkRank_outsOk (l : Link) (x y z : Byte) :
    (answerLinkRank l x y z s).state.OutsOk := by
  rcases read : rankOf x y z with - | rank
  · simp only [answerLinkRank, read]
    exact ok
  · simp only [answerLinkRank, read]
    exact State.writeRank_outsOk ok l (rankOf_complete read)

end

/-! ### The events -/

section
variable {s : State} (ok : s.OutsOk)
include ok

/-- An event does nothing while the reset pin is held. -/
theorem unlessHeld_outsOk {f : State → State} {t : State}
    (h : (.next (s.unlessHeld f) : Host.Outcome State Fault Refusal) = .next t) (acts : (f s).OutsOk) : t.OutsOk := by
  obtain rfl : s.unlessHeld f = t := Host.Outcome.next.inj h
  unfold State.unlessHeld
  split_ifs
  · exact ok
  · exact acts

/-- An event that leaves the outputs alone. -/
theorem unlessHeld_outsOk_of_kept {f : State → State} {t : State}
    (h : (.next (s.unlessHeld f) : Host.Outcome State Fault Refusal) = .next t) (kept : OutsKept s (f s)) : t.OutsOk :=
  unlessHeld_outsOk ok h (kept.outsOk ok)

/-- The reset pin goes low: the pins are no longer driven, and the records stand (R176). -/
theorem execResetPinHeldLow_outsOk {t : State} (h : execResetPinHeldLow s = .next t) : t.OutsOk := by
  obtain ⟨complete, records⟩ := ok
  obtain rfl := Host.Outcome.next.inj h
  refine ⟨complete, fun o => ?_⟩
  simpa [State.out] using (records o).undriven .undriven

end

/-- A full reset loads outputs within their ranges and lets them act on their demand (R126, R175). -/
theorem execFullReset_outsOk {powerRose : Bool} {straps : BitVec 2} {s t : State}
    (h : execFullReset powerRose straps s = .next t) : t.OutsOk := by
  obtain ⟨u, reset, acts⟩ := execFullReset_acts (s := s) rfl powerRose straps
  obtain rfl := Host.Outcome.next.inj (reset.symm.trans h)
  obtain ⟨-, -, ranges, complete, -⟩ := s.store.stopWrite.image.load_withinTheRules
  obtain ⟨frame, started, -⟩ := State.startOuts_spec acts (fun o => by simp [OutRecord.fresh])
  refine ⟨?_, fun o => ?_⟩
  · rw [show u.rank = s.store.stopWrite.image.load.1.rank from frame .rank (by decide)]
    simpa [rankComplete, and_assoc] using complete
  · rw [started o, State.post_out_kept, State.resetLoaded_out]
    exact OutRecord.started_ok (r := OutRecord.fresh _) _ _ ((outInRange_iff _).2 (ranges o)) rfl rfl rfl rfl _

/-- Every command keeps the output records in order. -/
theorem exec_outsOk {i : Instr} {s t : State} (ok : s.OutsOk) (h : exec i s = .next t) : t.OutsOk := by
  cases i with
  | status l => exact serveRequest_outsOk_of_kept ok h ⟨rfl, rfl, fun _ => ⟨_, rfl⟩⟩
  | lineGet l n => exact serveRequest_outsOk_of_kept ok h (by rw [answerLineGet_state]; exact .refl s)
  | lineSet l n b => exact serveRequest_outsOk_of_kept ok h (answerLineSet_outsKept s l n b)
  | zoneGet l z p => exact serveRequest_outsOk_of_kept ok h (by rw [answerZoneGet_state]; exact .refl s)
  | zoneSet l z b => exact serveRequest_outsOk_of_kept ok h (answerZoneSet_outsKept s l z b)
  | zoneHold l z m x n => exact serveRequest_outsOk_of_kept ok h (answerZoneHold_outsKept s l z m x n)
  | zoneRelease l z => exact serveRequest_outsOk_of_kept ok h (answerZoneRelease_outsKept s l z)
  | zoneAck l z n => exact serveRequest_outsOk_of_kept ok h (answerZoneAck_outsKept s l z n)
  | outGet l o => exact serveRequest_outsOk_of_kept ok h (by rw [answerOutGet_state]; exact .refl s)
  | outSet l o b => exact serveRequest_outsOk ok h (answerOutSet_outsOk ok l o b)
  | outClaim l o x n => exact serveRequest_outsOk ok h (answerOutClaim_outsOk ok l o x n)
  | outDrop l o => exact serveRequest_outsOk ok h (answerOutDrop_outsOk ok l o)
  | eventsFetch l n =>
    exact serveRequest_outsOk_of_kept ok h
      ((answerEventsFetch_changesOnly l n s).outsKept (by decide) (by decide) (by decide))
  | eventsSeek l x n =>
    exact serveRequest_outsOk_of_kept ok h
      ((answerEventsSeek_changesOnly l x n s).outsKept (by decide) (by decide) (by decide))
  | linkSet l m k x g =>
    exact serveRequest_outsOk_of_kept ok h
      ((answerLinkSet_changesOnly l m k x g s).outsKept (by decide) (by decide) (by decide))
  | linkRank l x y z => exact serveRequest_outsOk ok h (answerLinkRank_outsOk ok l x y z)
  | save l =>
    exact serveRequest_outsOk_of_kept ok h
      ((answerSave_changesOnly s).outsKept (by decide) (by decide) (by decide))
  | restart l => exact serveRequest_outsOk_of_kept ok h ⟨rfl, rfl, fun _ => ⟨_, rfl⟩⟩
  | characterReceived l ch =>
    exact unlessHeld_outsOk_of_kept ok h
      ((s.receive_changesOnly l ch).outsKept (by decide) (by decide) (by decide))
  | gapTimerExpiry l =>
    refine unlessHeld_outsOk_of_kept ok h ?_
    split_ifs
    · exact (s.setLink_changesOnly l _).outsKept (by decide) (by decide) (by decide)
    · exact .refl s
  | responseEnd l =>
    refine unlessHeld_outsOk ok h ?_
    split_ifs
    · refine State.restartIfDue_outsOk (OutsKept.outsOk (s := s) ?_ ok)
      exact ⟨rfl, s.startup.responseEnds_resetHeld l, fun _ => ⟨_, rfl⟩⟩
    · exact ok
  | referenceEdge n =>
    refine unlessHeld_outsOk_of_kept ok h ?_
    split_ifs
    · exact ((s.setLine_changesOnly n _).trans (State.referenceEdgeAt_spec n _).1).outsKept (by decide) (by decide)
        (by decide)
    · exact .refl s
  | nonReferenceEdge n =>
    refine unlessHeld_outsOk_of_kept ok h ?_
    split_ifs
    · exact (s.setLine_changesOnly n _).outsKept (by decide) (by decide) (by decide)
    · exact .refl s
  | stallTimerExpiry n =>
    refine unlessHeld_outsOk_of_kept ok h ?_
    have stalls := s.setLine_changesOnly n (s.line n).stall
    simp only
    split_ifs
    · exact stalls.outsKept (by decide) (by decide) (by decide)
    · exact (stalls.trans (State.post_changesOnly _ _)).outsKept (by decide) (by decide) (by decide)
    · exact .refl s
  | evaluationEvent n =>
    refine unlessHeld_outsOk_of_kept ok h ?_
    split
    · exact .refl s
    next c rest _ =>
      have handed := (s.hand_changesOnly rest).outsKept (by decide) (by decide) (by decide)
      exact handed.trans (State.takeCompletion_outsKept _ c)
  | staleDeadlineExpiry z =>
    refine unlessHeld_outsOk_of_kept ok h ?_
    split_ifs
    · exact s.expireDeadline_outsKept z
    · exact .refl s
  | holdExpiry z =>
    refine unlessHeld_outsOk_of_kept ok h ?_
    split
    · split_ifs
      · exact (s.endHold_informed z _ _).outsKept
      · exact .refl s
    · exact .refl s
  | zoneEventAtOutput z o =>
    refine unlessHeld_outsOk ok h ?_
    obtain ⟨taken, demanded⟩ := State.taken_outsOk ok z o
    simp only
    split_ifs
    · exact demanded
    · exact taken
    · exact ok
  | claimExpiry o l =>
    refine unlessHeld_outsOk ok h ?_
    split
    · split_ifs
      · exact State.endClaim_outsOk ok o l _ _
      · exact ok
    · exact ok
  | minHoldExpiry o =>
    refine unlessHeld_outsOk ok h ?_
    simp only
    split_ifs
    · exact ok.written ((s.setOut_written o _).act (some .minHoldEnd)) ((ok.2 o).released s.now s.nowMs)
    · exact ok
  | blinkPhaseExpiry o =>
    refine unlessHeld_outsOk ok h ?_
    split
    next blinks =>
      split_ifs
      · exact ok.written (s.setOut_written o _) ((ok.2 o).nextPhase s.nowMs blinks)
      · exact ok
    · exact ok
  | gatherTimerExpiry l =>
    refine unlessHeld_outsOk_of_kept ok h ?_
    split_ifs
    · exact (s.setCursor_changesOnly l _).outsKept (by decide) (by decide) (by decide)
    · exact .refl s
  | warmupExpiry =>
    refine unlessHeld_outsOk_of_kept ok h ?_
    split_ifs
    · exact ⟨rfl, rfl, fun _ => ⟨_, rfl⟩⟩
    · exact .refl s
  | storeWriteCompletion good =>
    refine unlessHeld_outsOk ok h ?_
    split
    next snapshot _ =>
      refine State.restartIfDue_outsOk (OutsKept.outsOk ?_ ok)
      exact (s.completeWrite_changesOnly snapshot good).outsKept (by decide) (by decide) (by decide)
    · exact ok
  | fullReset p x => exact execFullReset_outsOk h
  | restartEffect => exact unlessHeld_outsOk ok h (State.restartIfDue_outsOk ok)
  | resetPinHeldLow => exact execResetPinHeldLow_outsOk ok h
  | captureTick levels =>
    refine unlessHeld_outsOk_of_kept ok h ?_
    have taken := s.takeWaitingEdges_changesOnly.outsKept (by decide) (by decide) (by decide)
    simp only
    generalize s.takeWaitingEdges = u at taken ⊢
    exact taken.trans ⟨rfl, rfl, fun _ => ⟨_, rfl⟩⟩

/-- Settles O53: every command leaves each output record formed, settled and shown on its pin. -/
theorem outputRecordsStayInOrder : Obligations.OutputRecordsStayInOrder := by
  unfold Obligations.OutputRecordsStayInOrder
  intro s t ok h
  unfold step at h
  split at h
  · exact Host.Outcome.next.inj h ▸ ok
  next i rest _ => exact exec_outsOk (s := { s with pending := rest }) ok h

end Sys2Proof.Machine
end

/-! ## Wanted states, demands and claims -/

section
/-!
PROOFS. The tables of pin, wanted state and turns, the notices of zones, OUT CLAIM, OUT DROP, LINK RANK and the expiry
of a claim (R108 to R113, R115 to R118, R120, R123, R124).
-/

namespace Sys2Proof.Machine

/-! ### The wanted state and its turns -/

/-- A winning OFF claim yields to the demand of a safety output alone (R117). -/
theorem OutRecord.wantedOf_off {r : OutRecord} {c : Claim} (claim : r.winningClaim = some c) (off : c.on = false) :
    r.wantedOf = (r.config.safety && r.demand, r.config.safety && r.demand) := by
  simp only [OutRecord.wantedOf, claim, off]
  cases r.config.safety && r.demand <;> rfl

/-- The source follows the override, then the winner (R117, R124). -/
theorem OutRecord.source_eq (r : OutRecord) :
    r.source = if r.overridden = true then .safety else r.winner.elim .auto .claim := by
  rcases winner : r.winner <;> simp only [OutRecord.source, winner, Option.elim]

/-- Settles O46: R123's table by polarity and drive, the source, and the act by wanted state and state. -/
theorem wantedStateAndItsTurns : Obligations.WantedStateAndItsTurns := by
  unfold Obligations.WantedStateAndItsTurns
  refine ⟨fun c => ?_, fun r => ?_, fun r now nowMs => ?_⟩
  · rcases polarity : c.polarity <;> rcases drive : c.drive <;> simp [pinLevel, polarity, drive]
  · refine ⟨fun forced => ?_, fun l own winner => ?_, fun own unclaimed => ?_, fun unclaimed => ?_, fun l winner => ?_,
      rfl, ?_⟩
    · simp [OutRecord.source_eq, forced]
    · simp [OutRecord.source_eq, own, winner]
    · simp [OutRecord.source_eq, own, unclaimed]
    · simp [OutRecord.winningClaim, unclaimed]
    · simp [OutRecord.winningClaim, winner]
    · simp [OutState.isOn_eq]
  · refine ⟨fun unclaimed => ?_, fun c claim on => ?_, fun c claim off => OutRecord.wantedOf_off claim off, ?_⟩
    · simp only [OutRecord.wantedOf, unclaimed]
    · simp only [OutRecord.wantedOf, claim, on, if_true]
    · intro blink on off
      refine ⟨fun wanted leaves => ?_, fun wanted free => ?_, OutRecord.act_stays_of_wanted now nowMs,
        OutRecord.act_stays_of_unwanted now nowMs⟩
      · rw [OutRecord.act_turnsOn now nowMs wanted leaves, OutRecord.turnOn_eq]
      · rw [OutRecord.act_turnsOff now nowMs wanted free, OutRecord.turnOff_eq]

/-! ### The demand -/

theorem zoneDemands_iff (trigger : Level) (r : ZoneRecord) :
    zoneDemands trigger r = true ↔ ∃ x, r.effective = some x ∧ trigger.rank ≤ x.rank := by
  rcases level : r.effective <;> simp [zoneDemands, level]

/-- R108: a zone of the mask at or above the trigger, or with a latch. -/
theorem demandOf_iff (c : OutConfig) (s : State) :
    demandOf s.zones c = true ↔
      (c.source = .demand ∧ ∃ y x, c.zoneMask.getLsbD y.val = true ∧ (s.zone y).effective = some x ∧
        c.trigger.rank ≤ x.rank) ∨
      (c.source = .latch ∧ ∃ y, c.zoneMask.getLsbD y.val = true ∧ (s.zone y).latch.isSome = true) := by
  rcases source : c.source <;> simp [demandOf, source, maskHas, zoneDemands_iff, State.zone]

section
variable {z : ZoneId} {o : OutId} {s : State} (notHeld : s.startup.resetHeld = false)
include notHeld

/-- ZONE_EVENT_AT_OUTPUT without a notice given does nothing (notes/assumptions/8.md). -/
theorem execZoneEventAtOutput_absent (absent : z ∉ (s.out o).told) : execZoneEventAtOutput z o s = .next s := by
  simp [execZoneEventAtOutput, State.unlessHeld_of _ _ notHeld, absent]

/-- A notice of a zone outside the mask is taken and nothing else happens (R109). -/
theorem execZoneEventAtOutput_outside (given : z ∈ (s.out o).told)
    (outside : (s.out o).config.zoneMask.getLsbD z.val = false) :
    execZoneEventAtOutput z o s = .next (s.setOut o { s.out o with told := (s.out o).told.erase z }) := by
  simp only [execZoneEventAtOutput, State.unlessHeld_of _ _ notHeld, List.contains_iff_mem, given, maskHas, outside,
    if_true, Bool.false_eq_true, if_false]

/-- A notice of a zone in the mask is taken and makes the output form its demand (R109). -/
theorem execZoneEventAtOutput_inside (given : z ∈ (s.out o).told)
    (inside : (s.out o).config.zoneMask.getLsbD z.val = true) :
    execZoneEventAtOutput z o s =
      .next ((s.setOut o { s.out o with told := (s.out o).told.erase z }).demandOut o) := by
  simp only [execZoneEventAtOutput, State.unlessHeld_of _ _ notHeld, List.contains_iff_mem, given, maskHas, inside,
    if_true]

end

/-- Settles O47: no notice, a notice of a zone outside the mask, and one of a zone in it, which forms the demand. -/
theorem zoneNoticesFormTheDemand : Obligations.ZoneNoticesFormTheDemand := by
  unfold Obligations.ZoneNoticesFormTheDemand
  intro z o s notHeld taken
  refine ⟨execZoneEventAtOutput_absent notHeld, execZoneEventAtOutput_outside notHeld, fun given inside => ?_,
    fun c => demandOf_iff c s⟩
  obtain ⟨frame, only, record, posts⟩ := (s.setOut_written o taken).demand
  exact ⟨_, execZoneEventAtOutput_inside notHeld given inside, frame, only, record, posts⟩

/-! ### Claims -/

/-- R110: the first link of the rank whose slot holds a claim. -/
theorem winnerOf_spec (rank : Rank) (claims : PerLink (Option Claim)) :
    (claims.get rank.first ≠ none → winnerOf rank claims = some rank.first) ∧
      (claims.get rank.first = none → claims.get rank.second ≠ none → winnerOf rank claims = some rank.second) ∧
      (claims.get rank.first = none → claims.get rank.second = none → claims.get rank.third ≠ none →
        winnerOf rank claims = some rank.third) ∧
      (claims.get rank.first = none → claims.get rank.second = none → claims.get rank.third = none →
        winnerOf rank claims = none) := by
  simp +contextual [winnerOf, Option.ne_none_iff_isSome]

/-- The claimed state of OUT CLAIM, 0 or 1 (R111, R168). -/
theorem twoOf_false_true {b : Byte} (h : b.toNat ≤ 1) : twoOf false true b = some (decide (b = 1)) := by
  have codes : b = 0 ∨ b = 1 := by bv_omega
  rcases codes with rfl | rfl <;> rfl

section
variable {num : Byte} {o : OutId} {s : State} (out : outOf num = some o) (l : Link)
include out

theorem answerOutClaim_stores {x : Byte} {minutes : Half} {on : Bool} {k : Nat}
    (state : twoOf false true x = some on) (read : minutesOf minutes = some k) :
    answerOutClaim l num x minutes s =
      let t := s.storeClaim l o on k
      { state := t, status := if (t.out o).winner = some l then .done else .outranked,
        body := [flagByte ((s.out o).claims.get l).isSome, linkByte (t.out o).winner, flagByte (t.out o).wanted,
          flagByte (t.out o).outState.isOn] } := by
  simp only [answerOutClaim, out, state, read, onByte]

theorem answerOutDrop_none (empty : (s.out o).claims.get l = none) : answerOutDrop l num s = refuse s .nothing := by
  simp only [answerOutDrop, out, empty]

theorem answerOutDrop_some {c : Claim} (held : (s.out o).claims.get l = some c) :
    answerOutDrop l num s =
      let t := s.endClaim o l .dropped none
      { state := t, status := .done,
        body := [flagByte c.on, linkByte (t.out o).winner, flagByte (t.out o).outState.isOn] } := by
  simp only [answerOutDrop, out, held, onByte]

end

/-- Settles O48: the winner by rank, then the operands read and the claim stored in one event at the output. -/
theorem outClaimStoresTheClaim : Obligations.OutClaimStoresTheClaim := by
  unfold Obligations.OutClaimStoresTheClaim
  refine ⟨winnerOf_spec, ?_⟩
  intro l num state minutes s o takes out code least most r claims formed acted
  have written := s.storeClaim_written l o (decide (state = 1)) minutes.toNat
  have answers := answerOutClaim_stores (s := s) out l (twoOf_false_true code) (minutesOf_eq_some least most)
  simp only [written.record, OutRecord.act_winner, OutRecord.act_wanted] at answers
  obtain ⟨t, served, frame, only, record, posts, replies⟩ :=
    serveRequest_outWritten (k := .outClaim) takes answers written
  exact ⟨t, served, frame, only, record, posts, by rw [record]; exact replies⟩

/-- CLAIM_EXPIRY clears a claim whose second is reached (R113). -/
theorem execClaimExpiry_due {o : OutId} {l : Link} {c : Claim} {s : State} (notHeld : s.startup.resetHeld = false)
    (held : (s.out o).claims.get l = some c) (past : (s.now - c.expiry).toNat < 2 ^ 31) :
    execClaimExpiry o l s = .next (s.endClaim o l .expired (some .expiry)) := by
  simp only [execClaimExpiry, State.unlessHeld_of _ _ notHeld, held]
  rw [if_pos (by simpa [reached] using past)]

/-- CLAIM_EXPIRY without a claim, or before its second, does nothing (R113; notes/assumptions/28.md). -/
theorem execClaimExpiry_early {o : OutId} {l : Link} {s : State} (notHeld : s.startup.resetHeld = false)
    (early : (s.out o).claims.get l = none ∨
      ∃ c, (s.out o).claims.get l = some c ∧ 2 ^ 31 ≤ (s.now - c.expiry).toNat) :
    execClaimExpiry o l s = .next s := by
  rcases early with empty | ⟨c, held, ahead⟩
  · simp only [execClaimExpiry, State.unlessHeld_of _ _ notHeld, empty]
  · simp only [execClaimExpiry, State.unlessHeld_of _ _ notHeld, held]
    rw [if_neg (by simpa [reached] using ahead)]

/-- Settles O49: the two answers of OUT DROP, then the expiry before and after its second. -/
theorem claimsEndByDropAndExpiry : Obligations.ClaimsEndByDropAndExpiry := by
  unfold Obligations.ClaimsEndByDropAndExpiry
  intro l o s r claims formed acted ends
  refine ⟨fun num takes out => ⟨fun empty => ?_, fun c held => ?_⟩, fun notHeld => ⟨fun c held past => ?_,
    execClaimExpiry_early notHeld⟩⟩
  · exact serveRequest_refused takes .outDrop _ _ _ (answerOutDrop_none out l empty)
  · have written := s.endClaim_written o l .dropped none
    have answers := answerOutDrop_some out l held
    simp only [written.record, OutRecord.act_winner] at answers
    obtain ⟨t, served, frame, only, record, posts, replies⟩ :=
      serveRequest_outWritten (k := .outDrop) takes answers written
    exact ⟨t, served, ⟨frame, only, record, posts⟩, by rw [record]; exact replies⟩
  · obtain ⟨frame, only, record, posts⟩ := s.endClaim_written o l .expired (some .expiry)
    exact ⟨_, execClaimExpiry_due notHeld held past, frame, only, record, posts⟩

/-! ### The rank -/

theorem linkOf_linkCode (l : Link) : linkOf (BitVec.ofNat 8 (linkCode l)) = some l := by
  cases l <;> rfl

/-- Three different links are read as a rank (R115, R116). -/
theorem rankOf_linkCodes {x y z : Link} (xy : x ≠ y) (xz : x ≠ z) (yz : y ≠ z) :
    rankOf (BitVec.ofNat 8 (linkCode x)) (BitVec.ofNat 8 (linkCode y)) (BitVec.ofNat 8 (linkCode z)) =
      some ⟨x, y, z⟩ := by
  simp [rankOf, linkOf_linkCode, rankComplete, xy, xz, yz]

theorem answerLinkRank_writes {x y z : Byte} {rank : Rank} (read : rankOf x y z = some rank) (l : Link) (s : State) :
    answerLinkRank l x y z s = { state := s.writeRank l rank, status := .done, body := rankBytes rank } := by
  simp only [answerLinkRank, read]

/-- Settles O50: the rank read and written, every winner formed and acted on, and the rank answered. -/
theorem linkRankReformsEveryWinner : Obligations.LinkRankReformsEveryWinner := by
  unfold Obligations.LinkRankReformsEveryWinner
  intro l x y z s xy xz yz code rank formed acted takes
  obtain ⟨frame, written, records, posts⟩ := s.writeRank_spec l rank
  obtain ⟨t, served, responds, replies⟩ := serveRequest_acted takes .linkRank
    (answerLinkRank_writes (rankOf_linkCodes xy xz yz) l s) (frame .links (by decide))
  dsimp only at responds replies
  exact ⟨t, served, (frame.trans responds).mono (by decide),
    (responds.same .rank (by decide) : t.rank = _).trans written,
    fun o => (State.out_congr (responds .outs (by decide)) o).trans (records o),
    (responds .queue (by decide) : t.queue = _).trans posts, replies⟩

end Sys2Proof.Machine
end

/-! ## OUT SET, minimum holds and blink phases -/

section
/-!
PROOFS. OUT SET past its checks, and the two timers of an output (R106, R107, R119, R121 to R123).
-/

namespace Sys2Proof.Machine

/-! ### The block of OUT SET -/

/-- The first three values are read from their codes (R168). -/
theorem code_of_threeOf {α : Type} {code : α → Nat} {x y z v : α} {b : Byte}
    (codes : code x = 0 ∧ code y = 1 ∧ code z = 2) (h : threeOf x y z b = some v) : byteOf (code v) = b := by
  obtain ⟨hx, hy, hz⟩ := codes
  unfold threeOf at h
  split_ifs at h with h0 h1 h2 <;> obtain rfl := Option.some.inj h
  · rw [hx, h0]
    rfl
  · rw [hy, h1]
    rfl
  · rw [hz, h2]
    rfl

/-- The first two values are read from their codes (R168). -/
theorem code_of_twoOf {α : Type} {code : α → Nat} {x y v : α} {b : Byte} (codes : code x = 0 ∧ code y = 1)
    (h : twoOf x y b = some v) : byteOf (code v) = b := by
  obtain ⟨hx, hy⟩ := codes
  unfold twoOf at h
  split_ifs at h with h0 h1 <;> obtain rfl := Option.some.inj h
  · rw [hx, h0]
    rfl
  · rw [hy, h1]
    rfl

/-- An output block read is the block the configuration is reported as, `safety` as a flag (R168, R169). -/
theorem outBlockBytes_of_outConfigOf {b : OutBlock} {c : OutConfig} (h : outConfigOf b = some c) :
    outBlockBytes c = encodeOutBlock { b with safety := flagByte (b.safety != 0) } := by
  obtain ⟨source, hs, h⟩ := Option.bind_eq_some_iff.1 h
  obtain ⟨trigger, ht, h⟩ := Option.bind_eq_some_iff.1 h
  obtain ⟨polarity, hp, h⟩ := Option.bind_eq_some_iff.1 h
  obtain ⟨drive, hd, h⟩ := Option.bind_eq_some_iff.1 h
  obtain ⟨mode, hm, h⟩ := Option.bind_eq_some_iff.1 h
  obtain ⟨-, read⟩ := Option.ite_none_right_eq_some.1 h
  obtain rfl := Option.some.inj read
  simp only [outBlockBytes, encodeOutBlock, code_of_threeOf (code := sourceCode) ⟨rfl, rfl, rfl⟩ hs,
    levelByte_of_alarmLevelOf ht, code_of_twoOf (code := outPolarityCode) ⟨rfl, rfl⟩ hp,
    code_of_twoOf (code := driveCode) ⟨rfl, rfl⟩ hd, code_of_twoOf (code := modeCode) ⟨rfl, rfl⟩ hm]
  simp only [halfOf, byteOf, BitVec.ofNat_toNat, BitVec.setWidth_eq]

/-! ### Holds -/

theorem OutRecord.endHold_of_onHeld {r : OutRecord} (held : r.outState = .onHeld) :
    r.endHold = { r with outState := .onFree, holdStart := none } := by
  simp only [OutRecord.endHold, held, OutState.isOn, if_true]

theorem OutRecord.endHold_of_offHeld {r : OutRecord} (held : r.outState = .offHeld) :
    r.endHold = { r with outState := .offFree, holdStart := none } := by
  simp only [OutRecord.endHold, held, OutState.isOn, Bool.false_eq_true, if_false]

/-- The end of a hold is reached once its minimum time has run, less than half the wrap ago (R119). -/
theorem OutRecord.holdEnd_due_iff (r : OutRecord) (now : Word) :
    secondDue now r.holdEnd = true ↔
      ∃ start, r.holdStart = some start ∧ (now - (start + BitVec.ofNat 32 r.minTime)).toNat < 2 ^ 31 := by
  rcases hold : r.holdStart <;> simp [OutRecord.holdEnd, hold, reached, secondsAfter]

theorem OutRecord.minTime_of_held {r : OutRecord} (held : r.outState.isHeld = true) :
    r.minTime = if r.outState = .onHeld then r.config.minOnS else r.config.minOffS := by
  rw [OutState.isHeld_eq, decide_eq_true_eq] at held
  rcases held with held | held <;> simp [OutRecord.minTime_eq, held]

@[simp] theorem OutRecord.formWanted_config (r : OutRecord) : r.formWanted.config = r.config := rfl

@[simp] theorem OutRecord.resizeHold_config (r : OutRecord) (now : Word) (before : Nat) :
    (r.resizeHold now before).config = r.config := by
  rcases OutRecord.resizeHold_cases (r := r) now before with e | e <;> rw [e]
  rfl

/-- A hold is given up where its minimum time changed and the new one is 0 or has run; any other runs on (R122). -/
theorem OutRecord.resizeHold_spec (r : OutRecord) (now : Word) (before : Nat) :
    let ends := r.minTime ≠ before ∧
      (r.minTime = 0 ∨ ∃ start, r.holdStart = some start ∧ (now - (start + BitVec.ofNat 32 r.minTime)).toNat < 2 ^ 31)
    (r.outState.isHeld = true → ends → r.resizeHold now before = r.endHold) ∧
      (r.outState.isHeld = true → ¬ends → r.resizeHold now before = r) ∧
      (r.outState.isHeld = false → r.resizeHold now before = r) := by
  intro ends
  have same : (r.minTime != before && (r.minTime = 0 || secondDue now r.holdEnd)) = true ↔ ends := by
    simp only [ends, ← r.holdEnd_due_iff, Bool.and_eq_true, bne_iff_ne, Bool.or_eq_true, decide_eq_true_eq]
  simp only [OutRecord.resizeHold, Bool.and_assoc]
  refine ⟨fun held due => ?_, fun held runs => ?_, fun free => ?_⟩
  · rw [held, same.2 due]
    rfl
  · rw [held, Bool.eq_false_iff.2 (fun due => runs (same.1 due))]
    rfl
  · rw [free]
    rfl

/-- What an OUT SET leaves of its output, from the hold resized (R121, R123). -/
theorem State.writeOut_sets {o : OutId} {c : OutConfig} {s : State} {resized : OutRecord}
    (resizes : ({ s.out o with config := c } : OutRecord).resizeHold s.now (s.out o).minTime = resized) (l : Link) :
    let formed := ({ resized with demand := demandOf s.zones c } : OutRecord).formWanted
    let acted := formed.act s.now s.nowMs
    OutWritten o
      { acted.1 with
        blink :=
          if acted.1.outState.isOn = true ∧ c.mode = .blink then
            some { onPhase := true, expiry := (s.nowMs + c.blinkOn * 100) % 4294967296000 }
          else none
        pin := pinLevel c acted.1.outState.isOn }
      (.config (.output o) l :: turnEntry o formed.source acted.2) s (s.writeOut l o c) := by
  have config : resized.config = c := by rw [← resizes, OutRecord.resizeHold_config]
  have written := s.writeOut_written l o c
  simpa only [resizes, OutRecord.formDemand, OutRecord.restartPin_eq, OutRecord.act_config,
    OutRecord.formWanted_config, config] using written

theorem answerOutSet_writes {num : Byte} {b : OutBlock} {o : OutId} {c : OutConfig} (out : outOf num = some o)
    (read : outConfigOf b = some c) (l : Link) (s : State) :
    answerOutSet l num b s =
      let t := s.writeOut l o c
      { state := t, status := .done,
        body := [flagByte (t.out o).demand, flagByte (t.out o).wanted, flagByte (t.out o).outState.isOn] } := by
  simp only [answerOutSet, out, read, onByte]

/-- Settles O51: the block read, then the hold resized by the three cases and the whole written in one event. -/
theorem outSetTakesEffectAtOnce : Obligations.OutSetTakesEffectAtOnce := by
  unfold Obligations.OutSetTakesEffectAtOnce
  refine ⟨fun b good => (outConfigOf_read b).2 good, ?_⟩
  intro l num b s o c takes out read r old new ends
  let configured : OutRecord := { r with config := c }
  obtain ⟨due, runs, free⟩ := configured.resizeHold_spec s.now r.minTime
  have times : r.outState.isHeld = true → configured.minTime = new ∧ r.minTime = old := fun held =>
    ⟨OutRecord.minTime_of_held (r := configured) held, OutRecord.minTime_of_held held⟩
  refine ⟨configured.resizeHold s.now r.minTime, fun held ended => ?_, fun held ended => ?_, fun stays => ?_, ?_⟩
  · have isHeld : r.outState.isHeld = true := by rw [held]; rfl
    rw [(times isHeld).1, (times isHeld).2] at due
    rw [(times isHeld).2, due isHeld ended, OutRecord.endHold_of_onHeld (r := configured) held]
  · have isHeld : r.outState.isHeld = true := by rw [held]; rfl
    rw [(times isHeld).1, (times isHeld).2] at due
    rw [(times isHeld).2, due isHeld ended, OutRecord.endHold_of_offHeld (r := configured) held]
  · rcases isHeld : r.outState.isHeld
    · exact free isHeld
    · rw [(times isHeld).1, (times isHeld).2] at runs
      rw [(times isHeld).2]
      rcases stays with onFree | offFree | ended
      · rw [onFree] at isHeld
        cases isHeld
      · rw [offFree] at isHeld
        cases isHeld
      · exact runs isHeld ended
  · intro formed acted blink
    have written := State.writeOut_sets (resized := configured.resizeHold s.now r.minTime) rfl l
    have answers := answerOutSet_writes out read l s
    simp only [written.record, OutRecord.act_demand, OutRecord.act_wanted] at answers
    obtain ⟨t, served, frame, only, record, posts, replies⟩ :=
      serveRequest_outWritten (k := .outSet) takes answers written
    exact ⟨t, served, frame, only, record, outBlockBytes_of_outConfigOf read, posts, by rw [record]; exact replies⟩

/-! ### The timers -/

/-- The other phase, with the pin at its level (R123). -/
theorem OutRecord.nextPhase_eq (nowMs : Nat) (b : Blink) (r : OutRecord) :
    r.nextPhase nowMs b =
      { r with
        blink := some
          { onPhase := !b.onPhase,
            expiry := (nowMs + (if b.onPhase then r.config.blinkOff else r.config.blinkOn) * 100) % 4294967296000 }
        pin := pinLevel r.config (decide ((r.outState = .onHeld ∨ r.outState = .onFree) ∧
          (r.config.mode = .blink → b.onPhase = false))) } := by
  rcases mode : r.config.mode <;>
    simp [OutRecord.nextPhase, OutRecord.setPin, OutRecord.pinActive, OutState.isOn_eq, msAfter, msWrap, mode]

theorem reachedMs_iff (now t : Nat) : reachedMs now t = true ↔ elapsedMs now t < 2147483648000 :=
  decide_eq_true_iff

section
variable {o : OutId} {s : State} (notHeld : s.startup.resetHeld = false)
include notHeld

/-- MIN_HOLD_EXPIRY ends a hold whose time has run, and the output acts (R119). -/
theorem execMinHoldExpiry_due (held : (s.out o).outState.isHeld = true)
    (past : secondDue s.now (s.out o).holdEnd = true) :
    execMinHoldExpiry o s = .next ((s.setOut o (s.out o).endHold).actOut o (some .minHoldEnd)) := by
  simp only [execMinHoldExpiry, State.unlessHeld_of _ _ notHeld, held, past, Bool.and_true, if_true]

/-- MIN_HOLD_EXPIRY before the end of the hold, or without one, does nothing (R119). -/
theorem execMinHoldExpiry_early (early : secondDue s.now (s.out o).holdEnd = false) :
    execMinHoldExpiry o s = .next s := by
  simp only [execMinHoldExpiry, State.unlessHeld_of _ _ notHeld, early, Bool.and_false, Bool.false_eq_true, if_false]

/-- BLINK_PHASE_EXPIRY takes the other phase once the expiry is reached, and not before (R123). -/
theorem execBlinkPhaseExpiry_some {b : Blink} (blinks : (s.out o).blink = some b) :
    execBlinkPhaseExpiry o s =
      .next (if elapsedMs s.nowMs b.expiry < 2147483648000 then s.setOut o ((s.out o).nextPhase s.nowMs b) else s) := by
  simp only [execBlinkPhaseExpiry, State.unlessHeld_of _ _ notHeld, blinks, reachedMs_iff]

theorem execBlinkPhaseExpiry_none (steady : (s.out o).blink = none) : execBlinkPhaseExpiry o s = .next s := by
  simp only [execBlinkPhaseExpiry, State.unlessHeld_of _ _ notHeld, steady]

end

/-- Settles O52: each timer at its moment, before it, and stopped. -/
theorem minimumHoldsAndBlinkPhasesEnd : Obligations.MinimumHoldsAndBlinkPhasesEnd := by
  unfold Obligations.MinimumHoldsAndBlinkPhasesEnd
  intro o s notHeld r
  refine ⟨?_, fun stopped => ?_, execBlinkPhaseExpiry_none notHeld, ?_⟩
  · intro start minimum started state reached free
    have hold : r.outState.isHeld = true ∧ r.minTime = minimum ∧ r.endHold = free := by
      rcases state with ⟨on, rfl⟩ | ⟨off, rfl⟩
      · refine ⟨by rw [on]; rfl, by simp [OutRecord.minTime_eq, on], ?_⟩
        simp only [OutRecord.endHold_of_onHeld on, free, on, if_true]
      · refine ⟨by rw [off]; rfl, by simp [OutRecord.minTime_eq, off], ?_⟩
        simp [OutRecord.endHold_of_offHeld off, free, off]
    obtain ⟨held, time, freed⟩ := hold
    have due : secondDue s.now r.holdEnd = true ↔ reached := by
      rw [OutRecord.holdEnd_due_iff, started, time]
      simp [reached]
    refine ⟨fun past => ?_, fun early => ?_⟩
    · have runs := execMinHoldExpiry_due notHeld held (due.2 past)
      have acts := (s.setOut_written o r.endHold).act (some .minHoldEnd)
      rw [freed] at runs acts
      exact ⟨_, runs, acts.frame, acts.only, acts.record, acts.posts⟩
    · exact execMinHoldExpiry_early notHeld (Bool.eq_false_iff.2 (fun past => early (due.1 past)))
  · exact execMinHoldExpiry_early notHeld (by simp [OutRecord.holdEnd, r, stopped])
  · intro b blinks reached length next
    have runs : exec (.blinkPhaseExpiry o) s = _ := execBlinkPhaseExpiry_some notHeld blinks
    rw [runs]
    refine ⟨fun past => ?_, fun early => ?_⟩
    · rw [if_pos past, OutRecord.nextPhase_eq]
    · rw [if_neg early]

end Sys2Proof.Machine
end

/-! ## The parts each command can change -/

section
/-!
PROOFS. The frame of every command, and that none touches the commands that wait (R134, R160, R165).
-/

namespace Sys2Proof.Machine

/-- The parts that a restart clears (R179). -/
def restartParts : List Part := [.handed, .lines, .zones, .queue, .outs, .startup]

/-- The parts that each command can change. -/
def touchedParts : Instr → List Part
  | .lineGet .. | .zoneGet .. | .outGet .. => [.links]
  | .status .. | .restart .. => [.links, .startup]
  | .lineSet .. => [.links, .lines, .queue]
  | .zoneSet .. | .zoneHold .. | .zoneRelease .. | .zoneAck .. => [.links, .zones, .queue, .outs]
  | .outSet .. | .outClaim .. | .outDrop .. => [.links, .queue, .outs]
  | .eventsFetch .. | .eventsSeek .. | .linkSet .. => [.links, .queue]
  | .linkRank .. => [.links, .rank, .queue, .outs]
  | .save .. => [.links, .store]
  | .characterReceived .. | .gapTimerExpiry .. => [.links]
  | .responseEnd .. => .links :: restartParts
  | .referenceEdge .. => [.lines, .queue, .handed]
  | .nonReferenceEdge .. => [.lines]
  | .stallTimerExpiry .. => [.lines, .queue]
  | .evaluationEvent .. => [.handed, .zones, .queue, .outs]
  | .staleDeadlineExpiry .. | .holdExpiry .. => [.zones, .queue, .outs]
  | .zoneEventAtOutput .. | .claimExpiry .. | .minHoldExpiry .. => [.queue, .outs]
  | .blinkPhaseExpiry .. => [.outs]
  | .gatherTimerExpiry .. => [.queue]
  | .warmupExpiry => [.startup, .lines, .zones]
  | .storeWriteCompletion .. => .store :: restartParts
  | .restartEffect => restartParts
  | .resetPinHeldLow => [.store, .startup, .queue, .links, .outs]
  | .fullReset .. => [.tick, .lines, .handed, .zones, .queue, .outs, .rank, .links, .store, .startup]
  | .captureTick .. => [.tick, .lines, .queue, .handed]

/-! ### Requests and events -/

section
variable {ps : List Part} {s : State}

/-- A request changes what its owner changes, and its link's record. -/
theorem serveRequest_changesOnly {l : Link} {k : RequestKind} {i : Instr} {act : State → Answer}
    (frame : ChangesOnly ps s (act s).state) :
    ∃ t, serveRequest l k i act s = .next t ∧ ChangesOnly (.links :: ps) s t := by
  refine ⟨_, rfl, ?_⟩
  have responds : ∀ (u : State) (code : StatusCode) (b : List Byte),
      ChangesOnly [.links] u (u.respond l k.code code b) := fun u code b => u.respond_changesOnly l _ code b
  have links : ∀ {u : State}, ChangesOnly [.links] s u → ChangesOnly (.links :: ps) s u := fun h => h.mono (by simp)
  unfold State.unlessHeld
  split_ifs
  · exact .refl _ s
  · change ChangesOnly _ s (s.serve l k i act)
    rcases s.serve_cases l k i act with ⟨-, e⟩ | ⟨-, e⟩ | ⟨-, e⟩ | ⟨-, e⟩ | ⟨-, e⟩ <;> rw [e]
    · exact (frame.trans (responds _ _ _)).mono (by simp [or_comm])
    · exact links (responds _ _ _)
    · exact links (responds _ _ _)
    · exact links (s.setLink_changesOnly l _)
    · exact .refl _ s

/-- An event changes nothing while the reset pin is held. -/
theorem unlessHeld_changesOnly {f : State → State} (frame : ChangesOnly ps s (f s)) :
    ∃ t, (.next (s.unlessHeld f) : Host.Outcome State Fault Refusal) = .next t ∧ ChangesOnly ps s t := by
  refine ⟨_, rfl, ?_⟩
  unfold State.unlessHeld
  split_ifs
  · exact .refl ps s
  · exact frame

end

/-! ### Lines and zones -/

section
variable (s : State)

theorem State.writeLine_changesOnly (l : Link) (n : LineId) (c : LineConfig) :
    ChangesOnly [.lines, .queue] s (s.writeLine l n c) :=
  (s.setLine_changesOnly n _).trans (State.post_changesOnly _ _)

theorem answerLineSet_changesOnly (l : Link) (line : Byte) (b : LineBlock) :
    ChangesOnly [.lines, .queue] s (answerLineSet l line b s).state := by
  unfold answerLineSet
  split
  · exact .refl _ s
  · split
    · exact .refl _ s
    · split
      · exact .refl _ s
      · exact s.writeLine_changesOnly l _ _

theorem acceptZoneSet_changesOnly (l : Link) (z : ZoneId) (c : ZoneConfig) :
    ChangesOnly [.zones, .queue, .outs] s (acceptZoneSet l z c s).state := by
  by_cases disabled : (s.zone z).status = .disabled
  · exact (acceptZoneSet_disabled l c disabled).1.frame
  · rw [acceptZoneSet_waits l c disabled]
    exact (s.setZone_changesOnly z _).mono (by decide)

theorem answerZoneSet_changesOnly (l : Link) (zone : Byte) (b : ZoneBlock) :
    ChangesOnly [.zones, .queue, .outs] s (answerZoneSet l zone b s).state := by
  unfold answerZoneSet
  split
  · exact .refl _ s
  · split
    · exact .refl _ s
    · split
      · exact .refl _ s
      · split
        · exact .refl _ s
        · exact acceptZoneSet_changesOnly s l _ _

theorem answerZoneHold_changesOnly (l : Link) (zone mode level : Byte) (minutes : Half) :
    ChangesOnly [.zones, .queue, .outs] s (answerZoneHold l zone mode level minutes s).state := by
  unfold answerZoneHold
  split
  · exact .refl _ s
  · split
    · split
      · exact .refl _ s
      · exact (s.setHold_informed l _ _ _).frame
    · exact .refl _ s

theorem answerZoneRelease_changesOnly (l : Link) (zone : Byte) :
    ChangesOnly [.zones, .queue, .outs] s (answerZoneRelease l zone s).state := by
  unfold answerZoneRelease
  split
  · exact .refl _ s
  · split
    · exact .refl _ s
    · exact (s.endHold_informed _ _ l).frame

theorem answerZoneAck_changesOnly (l : Link) (zone : Byte) (seq : Half) :
    ChangesOnly [.zones, .queue, .outs] s (answerZoneAck l zone seq s).state := by
  unfold answerZoneAck
  split
  · exact .refl _ s
  · split
    · exact .refl _ s
    · split
      · exact .refl _ s
      · split
        · exact (s.clearLatch_informed l _ _).frame
        · exact .refl _ s

theorem State.evaluate_changesOnly (z : ZoneId) (n : LineId) (c : Converted) :
    ChangesOnly [.zones, .queue, .outs] s (s.evaluate z n c) := by
  by_cases ends : (stageOne z s).1.active.air ≠ some n ∨ (stageOne z s).1.status = .disabled
  · exact (State.evaluate_stops c ends).frame
  · rw [not_or, not_not] at ends
    exact (State.evaluate_goesOn c ends.1 ends.2).1

theorem State.takeCompletion_changesOnly (c : Completion) :
    ChangesOnly [.zones, .queue, .outs] s (s.takeCompletion c) := by
  unfold State.takeCompletion
  split
  · exact .refl _ s
  · split_ifs
    · exact .refl _ s
    · exact s.evaluate_changesOnly _ _ _

theorem State.expireDeadline_changesOnly (z : ZoneId) :
    ChangesOnly [.zones, .queue, .outs] s (s.expireDeadline z) := by
  cases h : (s.zone z).status with
  | disabled =>
    rw [s.expireDeadline_disabled z h]
    exact (s.setZone_changesOnly z _).mono (by decide)
  | starting => exact (s.expireDeadline_turnsUnknown z (.inl h)).frame
  | active => exact (s.expireDeadline_turnsUnknown z (.inr h)).frame
  | unknown => exact (s.expireDeadline_unknown z h).frame

/-- The next capture tick writes time and lines alone (R132, R133). -/
theorem State.nextTick_changesOnly (lines : Vector LineRecord 16) :
    ChangesOnly [.tick, .lines] s { s with tick := s.tick + 1, lines := lines } := by
  intro p other
  cases p with
  | tick | lines => exact absurd (by decide) other
  | _ => rfl

/-! ### Restart and full reset -/

theorem State.restartNow_changesOnly (l : Link) : ChangesOnly restartParts s (s.restartNow l) := by
  rw [State.restartNow_eq]
  have started := (s.restartCleared_changesOnly l).trans
    (State.post_changesOnly _ (.start (.restart l) s.startup.source))
  exact (started.trans (ChangesOnly.foldl (fun s o => State.startOut_changesOnly o s) _ _)).mono (by decide)

theorem State.restartIfDue_changesOnly : ChangesOnly restartParts s s.restartIfDue := by
  unfold State.restartIfDue
  split
  · split_ifs
    · exact s.restartNow_changesOnly _
    · exact .refl _ s
  · exact .refl _ s

/-- The end of a response as start-up control sees it (R164, R178). -/
theorem State.responseEnds_changesOnly (l : Link) (r : LinkRecord) :
    ChangesOnly [.links, .startup] s { s.setLink l r with startup := s.startup.responseEnds l } := by
  intro p other
  cases p with
  | links | startup => exact absurd (by decide) other
  | _ => rfl

/-- A full reset leaves nothing but the commands that wait (R175, R176). -/
theorem execFullReset_changesOnly (powerRose : Bool) (straps : BitVec 2) :
    ∃ t, execFullReset powerRose straps s = .next t ∧
      ChangesOnly [.tick, .lines, .handed, .zones, .queue, .outs, .rank, .links, .store, .startup] s t := by
  obtain ⟨t, reset, acts⟩ := execFullReset_acts (s := s) rfl powerRose straps
  refine ⟨t, reset, fun p other => ?_⟩
  have outs := ChangesOnly.foldl (fun s o => State.startOut_changesOnly o s) (List.finRange 4)
    ((s.resetLoaded s.store.stopWrite.image powerRose straps).post
      (.start (resetCause powerRose) s.store.stopWrite.image.load.2))
  cases p with
  | pending => exact acts ▸ outs .pending (by decide)
  | _ => exact absurd (by decide) other

end

/-! ### Every command -/

/-- Every command ends in a next state and changes no part but its own. -/
theorem exec_changesOnly (i : Instr) (s : State) : ∃ t, exec i s = .next t ∧ ChangesOnly (touchedParts i) s t := by
  cases i with
  | status l => exact serveRequest_changesOnly (answerStatus_changesOnly l s)
  | lineGet l n => exact serveRequest_changesOnly (by rw [answerLineGet_state]; exact .refl _ s)
  | lineSet l n b => exact serveRequest_changesOnly (answerLineSet_changesOnly s l n b)
  | zoneGet l z p => exact serveRequest_changesOnly (by rw [answerZoneGet_state]; exact .refl _ s)
  | zoneSet l z b => exact serveRequest_changesOnly (answerZoneSet_changesOnly s l z b)
  | zoneHold l z m x n => exact serveRequest_changesOnly (answerZoneHold_changesOnly s l z m x n)
  | zoneRelease l z => exact serveRequest_changesOnly (answerZoneRelease_changesOnly s l z)
  | zoneAck l z n => exact serveRequest_changesOnly (answerZoneAck_changesOnly s l z n)
  | outGet l o => exact serveRequest_changesOnly (by rw [answerOutGet_state]; exact .refl _ s)
  | outSet l o b => exact serveRequest_changesOnly (answerOutSet_changesOnly l o b s)
  | outClaim l o x n => exact serveRequest_changesOnly (answerOutClaim_changesOnly l o x n s)
  | outDrop l o => exact serveRequest_changesOnly (answerOutDrop_changesOnly l o s)
  | eventsFetch l n => exact serveRequest_changesOnly (answerEventsFetch_changesOnly l n s)
  | eventsSeek l x n => exact serveRequest_changesOnly (answerEventsSeek_changesOnly l x n s)
  | linkSet l m k x g => exact serveRequest_changesOnly (answerLinkSet_changesOnly l m k x g s)
  | linkRank l x y z => exact serveRequest_changesOnly (answerLinkRank_changesOnly l x y z s)
  | save l => exact serveRequest_changesOnly (answerSave_changesOnly s)
  | restart l => exact serveRequest_changesOnly (answerRestart_changesOnly l s)
  | characterReceived l ch => exact unlessHeld_changesOnly (s.receive_changesOnly l ch)
  | gapTimerExpiry l =>
    refine unlessHeld_changesOnly ?_
    split_ifs
    · exact s.setLink_changesOnly l _
    · exact .refl _ s
  | responseEnd l =>
    refine unlessHeld_changesOnly (ps := .links :: restartParts) ?_
    split_ifs
    · exact ((s.responseEnds_changesOnly l _).trans (State.restartIfDue_changesOnly _)).mono (by decide)
    · exact .refl _ s
  | referenceEdge n =>
    refine unlessHeld_changesOnly (ps := [.lines, .queue, .handed]) ?_
    split_ifs
    · exact ((s.setLine_changesOnly n _).trans (State.referenceEdgeAt_spec n _).1).mono (by decide)
    · exact .refl _ s
  | nonReferenceEdge n =>
    refine unlessHeld_changesOnly ?_
    split_ifs
    · exact s.setLine_changesOnly n _
    · exact .refl _ s
  | stallTimerExpiry n =>
    refine unlessHeld_changesOnly (ps := [.lines, .queue]) ?_
    have stalls := s.setLine_changesOnly n (s.line n).stall
    simp only
    split_ifs
    · exact stalls.mono (by decide)
    · exact (stalls.trans (State.post_changesOnly _ _)).mono (by decide)
    · exact .refl _ s
  | evaluationEvent n =>
    refine unlessHeld_changesOnly ?_
    split
    · exact .refl _ s
    next c rest _ => exact (s.hand_changesOnly rest).trans (State.takeCompletion_changesOnly _ c)
  | staleDeadlineExpiry z =>
    refine unlessHeld_changesOnly ?_
    split_ifs
    · exact s.expireDeadline_changesOnly z
    · exact .refl _ s
  | holdExpiry z =>
    refine unlessHeld_changesOnly ?_
    split
    · split_ifs
      · exact (s.endHold_informed z _ _).frame
      · exact .refl _ s
    · exact .refl _ s
  | zoneEventAtOutput z o =>
    refine unlessHeld_changesOnly (ps := [.queue, .outs]) ?_
    have taken := s.setOut_changesOnly o { s.out o with told := (s.out o).told.erase z }
    simp only
    split_ifs
    · exact (taken.trans (State.demandOut_changesOnly o _)).mono (by decide)
    · exact taken.mono (by decide)
    · exact .refl _ s
  | claimExpiry o l =>
    refine unlessHeld_changesOnly ?_
    split
    · split_ifs
      · exact s.endClaim_changesOnly o l _ _
      · exact .refl _ s
    · exact .refl _ s
  | minHoldExpiry o =>
    refine unlessHeld_changesOnly (ps := [.queue, .outs]) ?_
    simp only
    split_ifs
    · exact ((s.setOut_changesOnly o _).trans (State.actOut_changesOnly o _ _)).mono (by decide)
    · exact .refl _ s
  | blinkPhaseExpiry o =>
    refine unlessHeld_changesOnly ?_
    split
    · split_ifs
      · exact s.setOut_changesOnly o _
      · exact .refl _ s
    · exact .refl _ s
  | gatherTimerExpiry l =>
    refine unlessHeld_changesOnly ?_
    split_ifs
    · exact s.setCursor_changesOnly l _
    · exact .refl _ s
  | warmupExpiry =>
    refine unlessHeld_changesOnly fun p other => ?_
    split_ifs
    · cases p with
      | startup | lines | zones => exact absurd (by decide) other
      | _ => rfl
    · exact ChangesOnly.refl _ s p other
  | storeWriteCompletion ok =>
    refine unlessHeld_changesOnly (ps := .store :: restartParts) ?_
    split
    · exact ((s.completeWrite_changesOnly _ ok).trans (State.restartIfDue_changesOnly _)).mono (by decide)
    · exact .refl _ s
  | fullReset p x => exact execFullReset_changesOnly s p x
  | restartEffect => exact unlessHeld_changesOnly s.restartIfDue_changesOnly
  | resetPinHeldLow =>
    refine ⟨_, rfl, fun p other => ?_⟩
    cases p with
    | store | startup | queue | links | outs => exact absurd (by decide) other
    | _ => rfl
  | captureTick levels =>
    refine unlessHeld_changesOnly (ps := [.tick, .lines, .queue, .handed]) ?_
    exact (s.takeWaitingEdges_changesOnly.trans (State.nextTick_changesOnly _ _)).mono (by decide)

/-- No command's part is the queue of commands. -/
theorem pending_notMem_touchedParts (i : Instr) : Part.pending ∉ touchedParts i := by
  cases i <;> simp [touchedParts, restartParts]

/-- Settles O2: every command has a frame, and the waiting commands lie outside it. -/
theorem everyCommandEndsInANextState : Obligations.EveryCommandEndsInANextState := by
  unfold Obligations.EveryCommandEndsInANextState
  intro i s
  obtain ⟨t, runs, frame⟩ := exec_changesOnly i s
  exact ⟨t, runs, frame .pending (pending_notMem_touchedParts i)⟩

end Sys2Proof.Machine
end

/-! ## Edges, windows and completions -/

section
/-!
PROOFS. The waiting edges of a tick, what each does to its line, and the capture tick (R130, R132 to R138).
-/

namespace Sys2Proof.Machine

/-! ### The waiting edge -/

theorem activeLevel_eq (p : LinePolarity) : activeLevel p = decide (p = .normal) := by cases p <;> rfl

/-- An edge waits while the sampled level is the opposite of the latest one (R133). -/
theorem LineRecord.edgeWaiting_iff (r : LineRecord) : r.edgeWaiting = true ↔ r.sampled = some (!r.pin) := by
  rcases sampled : r.sampled with - | level
  · simp [LineRecord.edgeWaiting, sampled]
  · cases level <;> cases pin : r.pin <;> simp [LineRecord.edgeWaiting, sampled, pin]

/-- The reference edge leaves the level high under RISING and low under FALLING (R130, R133). -/
theorem LineRecord.edgeIsReference_iff (r : LineRecord) :
    r.edgeIsReference = true ↔ (r.config.edge = .rising ↔ r.pin = true) := by
  cases edge : r.config.edge <;> simp [LineRecord.edgeIsReference, edge]

/-- A line record whose waiting edge has been followed: the latest level is the sampled one (R133). -/
def LineRecord.followed (r : LineRecord) : LineRecord := { r with sampled := some r.pin }

section
variable (n : LineId) (s : State)

theorem referenceEdgeWaits_iff :
    ReferenceEdgeWaits n s ↔ ((s.line n).edgeWaiting && (s.line n).edgeIsReference) = true := by
  rw [Bool.and_eq_true, LineRecord.edgeWaiting_iff, LineRecord.edgeIsReference_iff, ReferenceEdgeWaits]

theorem otherEdgeWaits_iff :
    OtherEdgeWaits n s ↔ ((s.line n).edgeWaiting && !(s.line n).edgeIsReference) = true := by
  rw [Bool.and_eq_true, LineRecord.edgeWaiting_iff, Bool.not_eq_true', ← Bool.not_eq_true,
    LineRecord.edgeIsReference_iff, OtherEdgeWaits]
  cases (s.line n).pin <;> simp

theorem noEdgeWaits_iff : NoEdgeWaits n s ↔ (s.line n).edgeWaiting = false := by
  rw [← Bool.not_eq_true, LineRecord.edgeWaiting_iff, NoEdgeWaits]
  rcases (s.line n).sampled with - | level
  · simp
  · cases level <;> cases (s.line n).pin <;> simp

@[simp] theorem State.setLine_setLine (q r : LineRecord) : (s.setLine n q).setLine n r = s.setLine n r := by
  simp [State.setLine]

@[simp] theorem State.followEdge_line : (s.followEdge n).line n = (s.line n).followed := s.setLine_line_self n _

/-- A reference edge that completes no window writes its line's record alone. -/
theorem State.referenceEdgeAt_silent {r : LineRecord} (silent : (s.line n).referenceEdge s.tick s.nowMs = (r, none)) :
    s.referenceEdgeAt n = s.setLine n r := by
  simp only [State.referenceEdgeAt, silent]

end

/-! ### A reference edge at the line record -/

section
variable {r : LineRecord} (tick nowMs : Nat)

/-- R134: OFF and WARMUP ignore edges. -/
theorem LineRecord.referenceEdge_ignored (h : r.state = .off ∨ r.state = .warmup) :
    r.referenceEdge tick nowMs = (r, none) := by
  rcases h with h | h <;> simp only [LineRecord.referenceEdge, h]

/-- R135: a window begins in STALLED, and in ACQUIRING without one. -/
theorem LineRecord.referenceEdge_begins (h : r.state = .stalled ∨ (r.state = .acquiring ∧ r.window = none)) :
    r.referenceEdge tick nowMs =
      ({ r with
          state := .acquiring
          window := some { periods := 0, span := 0, active := 0, refTick := tick, runActive := 0 }
          stallAt := some (tick + r.config.stallMs * 8000) }, none) := by
  rcases h with h | ⟨h, none⟩
  · simp only [LineRecord.referenceEdge, h]
    rfl
  · simp only [LineRecord.referenceEdge, h, none]
    rfl

variable {w : Window} (acquiring : r.state = .acquiring) (window : r.window = some w)
include acquiring window

/-- R135: an edge within the window counts a period. -/
theorem LineRecord.referenceEdge_counts (unfinished : w.periods + 1 ≠ r.config.window.periods) :
    r.referenceEdge tick nowMs =
      ({ r with
          window := some
            { periods := w.periods + 1, span := w.span + (tick - w.refTick), active := w.active + w.runActive,
              refTick := tick, runActive := 0 }
          stallAt := some (tick + r.config.stallMs * 8000) }, none) := by
  simp only [LineRecord.referenceEdge, acquiring, window, Window.count, unfinished, if_false]
  rfl

/-- R136, R137: the edge that completes the window takes the result and begins the next one. -/
theorem LineRecord.referenceEdge_completes (last : w.periods + 1 = r.config.window.periods) :
    r.referenceEdge tick nowMs =
      let done := convert r.config (w.span + (tick - w.refTick)) (w.active + w.runActive)
      (({ r with
          window := some { periods := 0, span := 0, active := 0, refTick := tick, runActive := 0 }
          stallAt := some (tick + r.config.stallMs * 8000) } : LineRecord).takeResult nowMs done.1 done.2,
        some done.2) := by
  simp only [LineRecord.referenceEdge, acquiring, window, Window.count, last, if_true]
  rfl

end

/-! ### The edge commands -/

section
variable {n : LineId} {s : State} (notHeld : s.startup.resetHeld = false)
include notHeld

theorem execReferenceEdge_waits (waits : ReferenceEdgeWaits n s) :
    exec (.referenceEdge n) s = .next ((s.followEdge n).referenceEdgeAt n) := by
  rw [exec, execReferenceEdge, State.unlessHeld_of _ _ notHeld, if_pos ((referenceEdgeWaits_iff n s).1 waits)]

theorem execReferenceEdge_none (none : ¬ReferenceEdgeWaits n s) : exec (.referenceEdge n) s = .next s := by
  rw [exec, execReferenceEdge, State.unlessHeld_of _ _ notHeld, if_neg (mt (referenceEdgeWaits_iff n s).2 none)]

/-- R133: the other edge is followed, and nothing else happens. -/
theorem execNonReferenceEdge_waits (waits : OtherEdgeWaits n s) :
    exec (.nonReferenceEdge n) s = .next (s.followEdge n) := by
  rw [exec, execNonReferenceEdge, State.unlessHeld_of _ _ notHeld, if_pos ((otherEdgeWaits_iff n s).1 waits)]

theorem execNonReferenceEdge_none (none : ¬OtherEdgeWaits n s) : exec (.nonReferenceEdge n) s = .next s := by
  rw [exec, execNonReferenceEdge, State.unlessHeld_of _ _ notHeld, if_neg (mt (otherEdgeWaits_iff n s).2 none)]

/-- The waiting reference edge, where it completes no window. -/
theorem execReferenceEdge_silent (waits : ReferenceEdgeWaits n s) {r : LineRecord}
    (silent : (s.line n).followed.referenceEdge s.tick s.nowMs = (r, none)) :
    exec (.referenceEdge n) s = .next (s.setLine n r) := by
  have follows : (s.followEdge n).referenceEdgeAt n = (s.followEdge n).setLine n r :=
    State.referenceEdgeAt_silent n _ (by rwa [State.followEdge_line])
  rw [execReferenceEdge_waits notHeld waits, follows, State.followEdge, State.setLine_setLine]

end

/-- Settles O15: the record's equation in each state, and no edge waiting. -/
theorem edgesBeginAndCountPeriods : Obligations.EdgesBeginAndCountPeriods := by
  unfold Obligations.EdgesBeginAndCountPeriods
  intro n s notHeld r stall
  refine ⟨fun waits => ⟨fun ignored => ?_, fun begins => ?_, fun w acquiring window unfinished => ?_⟩,
    execNonReferenceEdge_waits notHeld, execReferenceEdge_none notHeld, execNonReferenceEdge_none notHeld⟩
  · exact execReferenceEdge_silent notHeld waits (LineRecord.referenceEdge_ignored _ _ ignored)
  · exact execReferenceEdge_silent notHeld waits (LineRecord.referenceEdge_begins _ _ begins)
  · exact execReferenceEdge_silent notHeld waits (LineRecord.referenceEdge_counts _ _ acquiring window unfinished)

/-! ### The edge that completes a window -/

/-- The waiting reference edge taken: its line's record, the entry at a change of `fault`, and the completion of an AIR
line handed over (R136 to R138). -/
theorem State.followedReferenceEdge_spec (n : LineId) (s : State) :
    let r := s.line n
    let taken := r.followed.referenceEdge s.tick s.nowMs
    let t := (s.followEdge n).referenceEdgeAt n
    ChangesOnly [.lines, .queue, .handed] s t ∧ OnlyLine n s t ∧ t.line n = taken.1 ∧
      Posts (taken.2.bind (faultEntry n r.fault)).toList s t ∧
      t.handed = s.handed ++
        (if r.config.kind = .air then (taken.2.map (fun c => ⟨n, c, s.nowMs⟩)).toList else []) := by
  have follows : ChangesOnly [.lines] s (s.followEdge n) := s.setLine_changesOnly n _
  have edge := (s.followEdge n).referenceEdgeAt_spec n
  rw [State.followEdge_line] at edge
  obtain ⟨frame, only, record, posts, handed⟩ := edge
  exact ⟨(follows.trans frame).mono (by decide), fun m hm => (only m hm).trans (s.setLine_line_other n _ hm), record,
    posts, handed⟩

/-- PROBE_OK marks the end of a fault (R137). -/
theorem faultEntry_of_reading (n : LineId) (fault : Bool) {c : Converted} {x : Reading}
    (h : c = .good x ∨ c = .saturated x) : (faultEntry n fault c).toList = if fault then [.probeOk n] else [] := by
  rcases h with rfl | rfl <;> cases fault <;> rfl

/-- PROBE_FAULT RANGE marks its beginning (R137). -/
theorem faultEntry_of_range (n : LineId) (fault : Bool) :
    (faultEntry n fault .range).toList = if fault then [] else [.probeFault n .range] := by
  cases fault <;> rfl

/-- Settles O16: the record by its quality, its entry at a change of `fault`, and the hand-over. -/
theorem completedWindowsAreTaken : Obligations.CompletedWindowsAreTaken := by
  unfold Obligations.CompletedWindowsAreTaken
  refine ⟨⟨rfl, rfl, rfl⟩, fun n s w notHeld waits acquiring window last => ?_⟩
  intro r done begun
  obtain ⟨frame, only, record, posts, handed⟩ := s.followedReferenceEdge_spec n
  rw [LineRecord.referenceEdge_completes (r := r.followed) _ _ acquiring window last] at record posts handed
  change _ = LineRecord.takeResult _ _ done.2 _ at record
  change Posts (faultEntry n r.fault done.2).toList s _ at posts
  refine ⟨_, execReferenceEdge_waits notHeld waits, frame, only, handed, fun x good => ?_, fun x saturated => ?_,
    fun range => ?_⟩
  · rw [faultEntry_of_reading n r.fault (.inl good)] at posts
    rw [good] at record
    exact ⟨record, posts⟩
  · rw [faultEntry_of_reading n r.fault (.inr saturated)] at posts
    rw [saturated] at record
    exact ⟨record, posts⟩
  · rw [range, faultEntry_of_range] at posts
    rw [range] at record
    exact ⟨record, posts⟩

/-! ### The edges that no command has taken -/

/-- The waiting edge of a line taken, if there is one (notes/assumptions/5.md). -/
def State.takeEdgeIfWaiting (s : State) (n : LineId) : State := if (s.line n).edgeWaiting then s.takeEdge n else s

theorem State.takeWaitingEdges_eq (s : State) :
    s.takeWaitingEdges = (List.finRange 16).foldl State.takeEdgeIfWaiting s := rfl

/-- A reference edge leaves the levels as they are: they tell the edges, not the windows (R133). -/
theorem LineRecord.referenceEdge_levels (tick nowMs : Nat) (r : LineRecord) :
    (r.referenceEdge tick nowMs).1.sampled = r.sampled ∧ (r.referenceEdge tick nowMs).1.pin = r.pin := by
  simp only [LineRecord.referenceEdge]
  split
  case h_4 =>
    split
    · exact ⟨rfl, rfl⟩
    · split_ifs
      · cases (convert ..).2 <;> exact ⟨rfl, rfl⟩
      · exact ⟨rfl, rfl⟩
  all_goals exact ⟨rfl, rfl⟩

section
variable {n : LineId} {s : State}

theorem not_referenceEdgeWaits_of_none (none : NoEdgeWaits n s) : ¬ReferenceEdgeWaits n s := by
  rw [referenceEdgeWaits_iff, (noEdgeWaits_iff n s).1 none]
  exact Bool.false_ne_true

theorem not_otherEdgeWaits_of_none (none : NoEdgeWaits n s) : ¬OtherEdgeWaits n s := by
  rw [otherEdgeWaits_iff, (noEdgeWaits_iff n s).1 none]
  exact Bool.false_ne_true

/-- An edge that waits is the reference edge or the other. -/
theorem noEdgeWaits_of_neither (reference : ¬ReferenceEdgeWaits n s) (other : ¬OtherEdgeWaits n s) :
    NoEdgeWaits n s := by
  rw [referenceEdgeWaits_iff] at reference
  rw [otherEdgeWaits_iff] at other
  rw [noEdgeWaits_iff]
  cases waiting : (s.line n).edgeWaiting <;> cases kind : (s.line n).edgeIsReference <;>
    simp [waiting, kind] at reference other ⊢

theorem State.takeEdgeIfWaiting_none (none : NoEdgeWaits n s) : s.takeEdgeIfWaiting n = s := by
  rw [State.takeEdgeIfWaiting, (noEdgeWaits_iff n s).1 none, if_neg Bool.false_ne_true]

theorem State.takeEdgeIfWaiting_reference (waits : ReferenceEdgeWaits n s) :
    s.takeEdgeIfWaiting n = (s.followEdge n).referenceEdgeAt n := by
  obtain ⟨waiting, reference⟩ := Bool.and_eq_true_iff.1 ((referenceEdgeWaits_iff n s).1 waits)
  rw [State.takeEdgeIfWaiting, if_pos waiting, State.takeEdge, if_pos reference]

theorem State.takeEdgeIfWaiting_other (waits : OtherEdgeWaits n s) : s.takeEdgeIfWaiting n = s.followEdge n := by
  obtain ⟨waiting, other⟩ := Bool.and_eq_true_iff.1 ((otherEdgeWaits_iff n s).1 waits)
  rw [State.takeEdgeIfWaiting, if_pos waiting, State.takeEdge, if_neg (by simpa using other)]

end

section
variable (n : LineId) (s : State)

theorem State.takeEdgeIfWaiting_changesOnly : ChangesOnly [.lines, .queue, .handed] s (s.takeEdgeIfWaiting n) := by
  unfold State.takeEdgeIfWaiting
  split_ifs
  · exact s.takeEdge_changesOnly n
  · exact .refl _ s

/-- Taking a line's edge leaves the other lines, and no edge of its own line (R133). -/
theorem State.takeEdgeIfWaiting_taken :
    OnlyLine n s (s.takeEdgeIfWaiting n) ∧ NoEdgeWaits n (s.takeEdgeIfWaiting n) := by
  by_cases reference : ReferenceEdgeWaits n s
  · obtain ⟨-, only, record, -, -⟩ := s.followedReferenceEdge_spec n
    obtain ⟨sampled, pin⟩ := (s.line n).followed.referenceEdge_levels s.tick s.nowMs
    rw [State.takeEdgeIfWaiting_reference reference]
    refine ⟨only, .inr ?_⟩
    rw [record, sampled, pin]
    rfl
  · by_cases other : OtherEdgeWaits n s
    · rw [State.takeEdgeIfWaiting_other other]
      refine ⟨fun m hm => s.setLine_line_other n _ hm, .inr ?_⟩
      rw [State.followEdge_line]
      rfl
    · have none := noEdgeWaits_of_neither reference other
      rw [State.takeEdgeIfWaiting_none none]
      exact ⟨fun _ _ => rfl, none⟩

end

/-- Taking edges line by line leaves none on a line that was named or had none. -/
theorem State.takeEdges_noEdgeWaits (n : LineId) (ns : List LineId) (s : State) (h : n ∈ ns ∨ NoEdgeWaits n s) :
    NoEdgeWaits n (ns.foldl State.takeEdgeIfWaiting s) := by
  induction ns generalizing s with
  | nil => exact h.resolve_left (by simp)
  | cons m ns ih =>
    obtain ⟨only, taken⟩ := s.takeEdgeIfWaiting_taken m
    refine ih _ ?_
    by_cases same : n = m
    · exact .inr (same ▸ taken)
    · refine h.imp (fun named => (List.mem_cons.1 named).resolve_left same) (fun none => ?_)
      rwa [NoEdgeWaits, only n same]

/-- After the waiting edges are taken no line has one. -/
theorem State.takeWaitingEdges_noEdgeWaits (s : State) (n : LineId) : NoEdgeWaits n s.takeWaitingEdges := by
  rw [State.takeWaitingEdges_eq]
  exact State.takeEdges_noEdgeWaits n _ s (.inl (List.mem_finRange n))

/-- With no edge waiting there is none to take before the next tick (R133). -/
theorem State.takeWaitingEdges_of_none {s : State} (none : ∀ n, NoEdgeWaits n s) : s.takeWaitingEdges = s := by
  have still : ∀ ns : List LineId, ns.foldl State.takeEdgeIfWaiting s = s := fun ns => by
    induction ns with
    | nil => rfl
    | cons n ns ih => rw [List.foldl_cons, State.takeEdgeIfWaiting_none (none n), ih]
  rw [State.takeWaitingEdges_eq]
  exact still _

/-! ### The edge commands of every line -/

theorem execAll_cons {i : Instr} {s t : State} (h : exec i s = .next t) (is : List Instr) :
    execAll (i :: is) s = execAll is t := by
  simp only [execAll, h]

/-- The two edge commands of a line take its waiting edge (R133, R134). -/
theorem execAll_edges {s : State} (notHeld : s.startup.resetHeld = false) (n : LineId) (is : List Instr) :
    execAll (.referenceEdge n :: .nonReferenceEdge n :: is) s = execAll is (s.takeEdgeIfWaiting n) := by
  have held : (s.takeEdgeIfWaiting n).startup.resetHeld = false := by
    rw [show (s.takeEdgeIfWaiting n).startup = s.startup from s.takeEdgeIfWaiting_changesOnly n .startup (by decide)]
    exact notHeld
  by_cases reference : ReferenceEdgeWaits n s
  · have first : exec (.referenceEdge n) s = .next (s.takeEdgeIfWaiting n) := by
      rw [State.takeEdgeIfWaiting_reference reference]
      exact execReferenceEdge_waits notHeld reference
    have second := execNonReferenceEdge_none held (not_otherEdgeWaits_of_none (s.takeEdgeIfWaiting_taken n).2)
    rw [execAll_cons first, execAll_cons second]
  · rw [execAll_cons (execReferenceEdge_none notHeld reference)]
    by_cases other : OtherEdgeWaits n s
    · rw [execAll_cons (execNonReferenceEdge_waits notHeld other), State.takeEdgeIfWaiting_other other]
    · rw [execAll_cons (execNonReferenceEdge_none notHeld other),
        State.takeEdgeIfWaiting_none (noEdgeWaits_of_neither reference other)]

theorem execAll_flatMap_edges (ns : List LineId) {s : State} (notHeld : s.startup.resetHeld = false) :
    execAll (ns.flatMap (fun n => [.referenceEdge n, .nonReferenceEdge n])) s =
      .next (ns.foldl State.takeEdgeIfWaiting s) := by
  induction ns generalizing s with
  | nil => rfl
  | cons n ns ih =>
    have startup : (s.takeEdgeIfWaiting n).startup = s.startup := s.takeEdgeIfWaiting_changesOnly n .startup (by decide)
    rw [List.flatMap_cons, List.cons_append, List.singleton_append, execAll_edges notHeld n, List.foldl_cons]
    exact ih (by rwa [startup])

/-! ### The capture tick -/

/-- Every line of the new tick (R132, R133). -/
def State.nextTick (levels : BitVec 16) (s : State) : State :=
  { s with
    tick := s.tick + 1
    lines := Vector.ofFn (fun n : Fin 16 => ((s.line n).countTick).sample (levels.getLsbD n.val)) }

theorem execCaptureTick_eq (levels : BitVec 16) {s : State} (notHeld : s.startup.resetHeld = false) :
    exec (.captureTick levels) s = .next (s.takeWaitingEdges.nextTick levels) := by
  rw [exec, execCaptureTick, State.unlessHeld_of _ _ notHeld]
  rfl

theorem State.nextTick_line (levels : BitVec 16) (s : State) (n : LineId) :
    (s.nextTick levels).line n = (s.line n).countTick.sample (levels.getLsbD n.val) := by
  simp [State.nextTick, State.line]

/-- The tick that ends counted, and the new level taken (R132, R133). -/
theorem LineRecord.countTick_sample (level : Bool) (r : LineRecord) :
    r.countTick.sample level =
      { r with
        pin := level
        sampled := if r.sampled = none then some level else r.sampled
        window := r.window.map (fun w =>
          if r.sampled = some (decide (r.config.polarity = .normal)) then { w with runActive := w.runActive + 1 }
          else w) } := by
  rw [← activeLevel_eq]
  rcases window : r.window with - | w
  · rcases sampled : r.sampled with - | x <;> simp [LineRecord.countTick, LineRecord.sample, window, sampled]
  · rcases sampled : r.sampled with - | x
    · simp [LineRecord.countTick, LineRecord.sample, window, sampled]
    · by_cases active : x = activeLevel r.config.polarity <;>
        simp [LineRecord.countTick, LineRecord.sample, window, sampled, active]

/-- Uptime in s and in ms from the tick, which wrap together (Conventions, Units). -/
theorem State.uptime_eq (s : State) :
    s.now.toNat = s.tick / 8000000 % 4294967296 ∧ s.nowMs = s.tick / 8000 % 4294967296000 ∧
      s.nowMs / 1000 = s.now.toNat ∧ uptimeOf s.tick = s.now := by
  have now : s.now.toNat = s.tick / 8000000 % 4294967296 := BitVec.toNat_ofNat ..
  have ms : s.nowMs = s.tick / 8000 % 4294967296000 := rfl
  refine ⟨now, ms, ?_, rfl⟩
  rw [now, ms]
  omega

/-- Settles O17: the clock, the tick's rule for each line, and the edge commands that do what the tick does first. -/
theorem captureTickSamplesEveryLine : Obligations.CaptureTickSamplesEveryLine := by
  unfold Obligations.CaptureTickSamplesEveryLine
  refine ⟨State.uptime_eq, fun levels s notHeld => ⟨fun none => ?_, ?_⟩⟩
  · have ticks := execCaptureTick_eq levels notHeld
    rw [State.takeWaitingEdges_of_none none] at ticks
    exact ⟨_, ticks, s.nextTick_changesOnly _, rfl,
      fun n => (s.nextTick_line levels n).trans (LineRecord.countTick_sample _ _)⟩
  · have startup : s.takeWaitingEdges.startup = s.startup := s.takeWaitingEdges_changesOnly .startup (by decide)
    have held := (congrArg Startup.resetHeld startup).trans notHeld
    have ticks := execCaptureTick_eq levels held
    rw [State.takeWaitingEdges_of_none s.takeWaitingEdges_noEdgeWaits] at ticks
    exact ⟨_, execAll_flatMap_edges _ notHeld, s.takeWaitingEdges_noEdgeWaits,
      (execCaptureTick_eq levels notHeld).trans ticks.symm⟩

end Sys2Proof.Machine
end

/-! ## Stalls and LINE SET -/

section
/-!
PROOFS. The expiry of a stall timer, and a LINE SET past its checks (R130, R131, R139, R142, R143).
-/

namespace Sys2Proof.Machine

/-! ### The stall timer -/

section
variable {n : LineId} {s : State} (notHeld : s.startup.resetHeld = false)
include notHeld

theorem execStallTimerExpiry_due {due : Nat} (acquiring : (s.line n).state = .acquiring)
    (running : (s.line n).stallAt = some due) (past : due ≤ s.tick) :
    exec (.stallTimerExpiry n) s =
      .next (if (s.line n).fault then s.setLine n (s.line n).stall
        else (s.setLine n (s.line n).stall).post (.probeFault n .stalled)) := by
  rw [exec, execStallTimerExpiry, State.unlessHeld_of _ _ notHeld]
  simp [acquiring, running, past]

theorem execStallTimerExpiry_early
    (h : (s.line n).state ≠ .acquiring ∨ (s.line n).stallAt = none ∨
      ∃ due, (s.line n).stallAt = some due ∧ s.tick < due) :
    exec (.stallTimerExpiry n) s = .next s := by
  rw [exec, execStallTimerExpiry, State.unlessHeld_of _ _ notHeld]
  rcases h with other | stopped | ⟨due, running, ahead⟩
  · simp [other]
  · simp [stopped]
  · simp [running, ahead]

end

/-- Settles O18: a line with its fault posted already, and one whose fault the stall sets. -/
theorem stallTimerExpiryStallsTheLine : Obligations.StallTimerExpiryStallsTheLine := by
  unfold Obligations.StallTimerExpiryStallsTheLine
  refine fun n s notHeld => ⟨fun due acquiring running past => ?_, execStallTimerExpiry_early notHeld⟩
  have expires := execStallTimerExpiry_due notHeld acquiring running past
  have stalls := s.setLine_changesOnly n (s.line n).stall
  have only : OnlyLine n s (s.setLine n (s.line n).stall) := fun m hm => s.setLine_line_other n _ hm
  cases fault : (s.line n).fault with
  | true =>
    rw [fault, if_pos rfl] at expires
    exact ⟨_, expires, stalls.mono (by decide), only, s.setLine_line_self n _, .nil rfl⟩
  | false =>
    rw [fault, if_neg Bool.false_ne_true] at expires
    exact ⟨_, expires, stalls.trans (State.post_changesOnly _ _), only, s.setLine_line_self n _,
      (Posts.nil rfl).post rfl _⟩

/-! ### LINE SET -/

/-- A line block read is the block the configuration is reported as (R168, R169). -/
theorem lineBlockBytes_of_lineConfigOf {b : LineBlock} {c : LineConfig} (h : lineConfigOf b = some c) :
    lineBlockBytes c = encodeLineBlock b := by
  obtain ⟨kind, hk, h⟩ := Option.bind_eq_some_iff.1 h
  obtain ⟨edge, he, h⟩ := Option.bind_eq_some_iff.1 h
  obtain ⟨polarity, hp, h⟩ := Option.bind_eq_some_iff.1 h
  obtain ⟨window, hw, h⟩ := Option.bind_eq_some_iff.1 h
  obtain ⟨range, read⟩ := Option.ite_none_right_eq_some.1 h
  obtain rfl := Option.some.inj read
  simp only [lineBlockBytes, encodeLineBlock, code_of_threeOf (code := kindCode) ⟨rfl, rfl, rfl⟩ hk,
    code_of_twoOf (code := edgeCode) ⟨rfl, rfl⟩ he, code_of_twoOf (code := linePolarityCode) ⟨rfl, rfl⟩ hp,
    code_of_threeOf (code := windowCode) ⟨rfl, rfl, rfl⟩ hw]
  simp only [wordOfInt, halfOfInt, byteOf, BitVec.ofNat_toNat, BitVec.setWidth_eq, BitVec.ofInt_toInt,
    BitVec.ofInt_natCast]

/-- A block that is read lies within the ranges of R130 and R131 (R142). -/
theorem lineConfigOf_inRange {b : LineBlock} {c : LineConfig} (h : lineConfigOf b = some c) : lineInRange c = true := by
  obtain ⟨kind, -, h⟩ := Option.bind_eq_some_iff.1 h
  obtain ⟨edge, -, h⟩ := Option.bind_eq_some_iff.1 h
  obtain ⟨polarity, -, h⟩ := Option.bind_eq_some_iff.1 h
  obtain ⟨window, -, h⟩ := Option.bind_eq_some_iff.1 h
  obtain ⟨range, read⟩ := Option.ite_none_right_eq_some.1 h
  exact Option.some.inj read ▸ range

/-- R142 step 3: no zone names the line in a role that its new kind does not have. -/
theorem lineConflict_of_roles {n : LineId} {kind : LineKind} {s : State}
    (roles : ∀ y, ∀ d ∈ (s.zone y).configs, (d.air = some n → kind = .air) ∧ (n ∈ d.surfaces → kind = .surface)) :
    lineConflict n kind s = none := by
  have unbroken : firstZone (zoneTable (fun z => (s.zone z).configs)) (roleBroken n kind) = none :=
    firstZone_eq_none.2 fun z d hd => by simpa [roleBroken, namesAir, namesSurface] using roles z d hd
  simp only [lineConflict, unbroken, Option.isSome_none, Bool.false_eq_true, if_false]

theorem answerLineSet_writes {num : Byte} {b : LineBlock} {n : LineId} {c : LineConfig} {s : State} (l : Link)
    (line : lineOf num = some n) (read : lineConfigOf b = some c) (free : lineConflict n c.kind s = none) :
    answerLineSet l num b s = { state := s.writeLine l n c, status := .done, body := [] } := by
  simp only [answerLineSet, line, read, free]

/-- A line set up under `c` (R143). -/
theorem LineRecord.startAfresh_eq (tick : Nat) (warm : Bool) (c : LineConfig) (r : LineRecord) :
    r.startAfresh tick warm c =
      { r with
        config := c
        state := if c.kind = .off then .off else if warm then .warmup else .acquiring
        window := none
        stallAt := if c.kind = .off ∨ warm = true then none else some (tick + c.stallMs * 8000)
        lastQuality := .none
        fault := false
        lastRaw := none
        lastGood := none } :=
  LineRecord.startAfresh_same tick warm { r with config := c }

/-- Settles O14: the block read, then the line written and its CONFIG posted. -/
theorem lineSetStartsTheLineAfresh : Obligations.LineSetStartsTheLineAfresh := by
  unfold Obligations.LineSetStartsTheLineAfresh
  refine ⟨fun b good => (lineConfigOf_read b).2 good, fun l num b s n c takes line read roles => ?_⟩
  have answers := answerLineSet_writes l line read (lineConflict_of_roles roles)
  obtain ⟨t, runs, frame, replies⟩ := serveRequest_acted takes .lineSet answers rfl
  have lines : t.lines = (s.writeLine l n c).lines := frame .lines (by decide)
  have queue : t.queue = (s.writeLine l n c).queue := frame .queue (by decide)
  refine ⟨t, runs, (s.writeLine_changesOnly l n c).trans frame, fun m hm => ?_, ?_, lineBlockBytes_of_lineConfigOf read,
    queue.trans ((Posts.nil rfl).post rfl _), replies⟩
  · exact (State.line_congr lines m).trans (s.setLine_line_other n _ hm)
  · exact ((State.line_congr lines n).trans (s.setLine_line_self n _)).trans (LineRecord.startAfresh_eq ..)

end Sys2Proof.Machine
end

/-! ## The invariant of line records -/

section
/-!
PROOFS. Line records stay in order: readings within their ranges, each operation at a line record, and the step
(R130 to R135, R137, R139, R143, R146 to R148, R155, R156).
-/

namespace Sys2Proof.Machine

/-! ### Readings -/

/-- The value that the sorting of R155 lets through. -/
def Sorted.value? : Sorted → Option Int
  | .good x => some x
  | .clamped x => some x
  | .rejected => none

/-- A value let through lies in the valid range: inside it as it was, in the clamp band at the nearer end (R155). -/
theorem sortValue_range {lo hi band x y : Int} (order : lo ≤ hi) (h : (sortValue lo hi band x).value? = some y) :
    lo ≤ y ∧ y ≤ hi := by
  simp only [sortValue, Bool.and_eq_true, decide_eq_true_eq] at h
  split_ifs at h with inside below above
  · exact Option.some.inj h ▸ inside
  · exact Option.some.inj h ▸ ⟨le_refl lo, order⟩
  · exact Option.some.inj h ▸ ⟨order, le_refl hi⟩
  · exact absurd h (by simp [Sorted.value?])

/-- R156: a window that is not RANGE carries the two values that were let through. -/
theorem quality_values {rh t : Sorted} {x : Reading} (h : quality rh t = .good x ∨ quality rh t = .saturated x) :
    rh.value? = some x.rh ∧ t.value? = some x.temp := by
  cases rh <;> cases t <;> simp only [quality, reduceCtorEq, or_false, false_or, or_self, Converted.good.injEq,
    Converted.saturated.injEq] at h <;> exact h ▸ ⟨rfl, rfl⟩

/-- A window's reading lies in the valid range of its line's kind (R155, R156). -/
theorem convert_readingOk {c : LineConfig} {span active : Nat} {x : Reading}
    (h : (convert c span active).2 = .good x ∨ (convert c span active).2 = .saturated x) : readingOk c.kind x := by
  simp only [convert, convertRaw] at h
  split_ifs at h
  · obtain ⟨rh, temp⟩ := quality_values h
    cases kind : c.kind with
    | surface =>
      rw [kind] at temp
      exact sortValue_range (by decide) temp
    | off | air =>
      rw [kind] at rh temp
      obtain ⟨dry, wet⟩ := sortValue_range (by decide) rh
      exact ⟨dry, wet, sortValue_range (by decide) temp⟩
  · simp at h

/-! ### Each operation at a line record -/

section
variable {tick : Nat} {warm : Bool} {r : LineRecord}

/-- Sampled level, pin and fault are no part of the invariant. -/
theorem LineRecord.Ok.followed (h : r.Ok tick warm) : r.followed.Ok tick warm := h

theorem LineRecord.Ok.inFlight (h : r.Ok tick warm) {w : Window} (window : r.window = some w) :
    r.state = .acquiring ∧ w.periods < r.config.window.periods ∧ w.active ≤ w.span ∧ w.refTick ≤ tick ∧
      w.runActive ≤ tick - w.refTick := by
  obtain ⟨-, -, -, -, inFlight, -⟩ := h
  exact inFlight w window

/-- A window's result taken leaves the measurement and brings a reading in range (R137). -/
theorem LineRecord.Ok.takeResult (h : r.Ok tick warm) (nowMs : Nat) (raw : RawReading) {c : Converted}
    (reading : ∀ x, c = .good x ∨ c = .saturated x → readingOk r.config.kind x) :
    (r.takeResult nowMs raw c).Ok tick warm := by
  obtain ⟨range, off, warmup, stall, window, -, -, last⟩ := h
  cases c with
  | good x =>
    refine ⟨range, off, warmup, stall, window, nofun, fun _ => rfl, fun g taken => ?_⟩
    exact Option.some.inj taken ▸ reading x (.inl rfl)
  | saturated x =>
    refine ⟨range, off, warmup, stall, window, nofun, fun _ => rfl, fun g taken => ?_⟩
    exact Option.some.inj taken ▸ reading x (.inr rfl)
  | range => exact ⟨range, off, warmup, stall, window, nofun, by simp [LineRecord.takeResult], last⟩

/-- A window in flight written on an ACQUIRING line, with its stall timer (R135). -/
theorem LineRecord.Ok.windowed (h : r.Ok tick warm) (acquires : r.state = .acquiring ∨ r.state = .stalled) {w : Window}
    (unfinished : w.periods < r.config.window.periods) (active : w.active ≤ w.span) (edge : w.refTick = tick)
    (run : w.runActive = 0) (due : Nat) :
    ({ r with state := .acquiring, window := some w, stallAt := some due } : LineRecord).Ok tick warm := by
  obtain ⟨range, off, warmup, -, -, unread, read, last⟩ := h
  have measures : r.config.kind ≠ .off := fun kind => by
    rcases acquires with state | state <;> simp [off.2 kind] at state
  have past : ¬warm = true := fun warm => by
    rcases acquires with state | state <;> simp [(warmup measures).2 warm] at state
  refine ⟨range, by simpa using measures, fun _ => by simpa using past, by simp, fun v taken => ?_, unread, read, last⟩
  obtain rfl := Option.some.inj taken
  exact ⟨rfl, unfinished, active, edge.le, by omega⟩

theorem WindowSize.periods_pos (x : WindowSize) : 0 < x.periods := by cases x <;> decide

/-- Every reference edge keeps the record in order (R134 to R137). -/
theorem LineRecord.Ok.referenceEdge (h : r.Ok tick warm) (nowMs : Nat) :
    (r.referenceEdge tick nowMs).1.Ok tick warm := by
  have begins : r.state = .acquiring ∨ r.state = .stalled →
      ({ r with
          state := .acquiring
          window := some { periods := 0, span := 0, active := 0, refTick := tick, runActive := 0 }
          stallAt := some (tick + r.config.stallMs * 8000) } : LineRecord).Ok tick warm := fun acquires =>
    h.windowed acquires (WindowSize.periods_pos _) (le_refl 0) rfl rfl _
  cases state : r.state with
  | off => exact LineRecord.referenceEdge_ignored tick nowMs (.inl state) ▸ h
  | warmup => exact LineRecord.referenceEdge_ignored tick nowMs (.inr state) ▸ h
  | stalled =>
    rw [LineRecord.referenceEdge_begins tick nowMs (.inl state)]
    exact begins (.inr state)
  | acquiring =>
    cases window : r.window with
    | none =>
      rw [LineRecord.referenceEdge_begins tick nowMs (.inr ⟨state, window⟩)]
      exact begins (.inl state)
    | some w =>
      by_cases last : w.periods + 1 = r.config.window.periods
      · rw [LineRecord.referenceEdge_completes tick nowMs state window last]
        have next := begins (.inl state)
        rw [← state] at next
        exact next.takeResult nowMs _ fun x reading => convert_readingOk reading
      · obtain ⟨-, unfinished, active, -, run⟩ := h.inFlight window
        rw [LineRecord.referenceEdge_counts tick nowMs state window last]
        have counted := h.windowed (.inl state)
          (w := ⟨w.periods + 1, w.span + (tick - w.refTick), w.active + w.runActive, tick, 0⟩)
          (Nat.lt_of_le_of_ne unfinished last) (by simp only; omega) rfl rfl (tick + r.config.stallMs * 8000)
        rw [← state] at counted
        exact counted

/-- A stall keeps the record in order: the line is neither OFF nor in its warm-up (R139). -/
theorem LineRecord.Ok.stall (h : r.Ok tick warm) (acquiring : r.state = .acquiring) : r.stall.Ok tick warm := by
  obtain ⟨range, off, warmup, -, -, unread, read, last⟩ := h
  rw [acquiring] at off warmup
  exact ⟨range, by simpa [LineRecord.stall] using off, by simpa [LineRecord.stall] using warmup,
    by simp [LineRecord.stall], nofun, unread, read, last⟩

/-- A tick counts at most itself into the run of a window in flight (R132). -/
theorem LineRecord.Ok.nextTick (h : r.Ok tick warm) (level : Bool) :
    (r.countTick.sample level).Ok (tick + 1) warm := by
  obtain ⟨range, off, warmup, stall, window, unread, read, last⟩ := h
  rw [LineRecord.countTick_sample]
  refine ⟨range, off, warmup, stall, fun v counted => ?_, unread, read, last⟩
  obtain ⟨w, inFlight, counts⟩ := Option.map_eq_some_iff.1 counted
  obtain ⟨acquiring, unfinished, active, edge, run⟩ := window w inFlight
  obtain ⟨runActive, rfl, near⟩ : ∃ k, v = { w with runActive := k } ∧ k ≤ w.runActive + 1 := by
    split_ifs at counts
    · exact ⟨_, counts.symm, le_refl _⟩
    · exact ⟨w.runActive, counts.symm, Nat.le_succ _⟩
  refine ⟨acquiring, unfinished, active, Nat.le_succ_of_le edge, ?_⟩
  calc runActive ≤ w.runActive + 1 := near
    _ ≤ tick + 1 - w.refTick := by omega

/-- A line set up afresh is in order whatever it was (R143, R148). -/
theorem LineRecord.startAfresh_ok {c : LineConfig} (range : lineInRange c = true) :
    (r.startAfresh tick warm c).Ok tick warm := by
  rw [LineRecord.startAfresh_eq]
  refine ⟨range, ?_, ?_, ?_, nofun, fun _ => ⟨rfl, rfl⟩, by simp, nofun⟩ <;>
    by_cases off : c.kind = .off <;> cases warm <;> simp [off]

/-- A line after full reset waits for the warm-up, unless it is OFF (R147). -/
theorem LineRecord.fresh_ok {c : LineConfig} (range : lineInRange c = true) (pin : Bool) :
    (LineRecord.fresh pin c).Ok tick true := by
  refine ⟨range, ?_, ?_, ?_, nofun, fun _ => ⟨rfl, rfl⟩, by simp [LineRecord.fresh], nofun⟩ <;>
    by_cases off : c.kind = .off <;> simp [LineRecord.fresh, off]

/-- The warm-up's end: the lines in WARMUP acquire, the others are OFF (R146). -/
theorem LineRecord.Ok.endWarmup (h : r.Ok tick true) : (r.endWarmup tick).Ok tick false := by
  obtain ⟨range, off, warmup, stall, window, unread, read, last⟩ := h
  unfold LineRecord.endWarmup
  split_ifs with waiting
  · have measures : r.config.kind ≠ .off := fun kind => by simp [off.2 kind] at waiting
    exact ⟨range, by simpa using measures, by simp, by simp [stallFrom], nofun, unread, read, last⟩
  · have kind : r.config.kind = .off := not_not.1 fun measures => waiting ((warmup measures).2 rfl)
    exact ⟨range, off, fun measures => absurd kind measures, stall, window, unread, read, last⟩

end

/-! ### The lines of a state -/

section
variable {s t : State} (ok : s.LinesOk)
include ok

/-- An operation that leaves lines, time and warm-up keeps the records in order. -/
theorem State.LinesOk.kept (lines : t.lines = s.lines) (tick : t.tick = s.tick) (warm : t.warm = s.warm) :
    t.LinesOk := fun n => by
  rw [State.line_congr lines, tick, warm]
  exact ok n

theorem ChangesOnly.linesOk {ps : List Part} (frame : ChangesOnly ps s t) (hl : Part.lines ∉ ps) (ht : Part.tick ∉ ps)
    (hu : Part.startup ∉ ps) : t.LinesOk :=
  ok.kept (frame .lines hl) (frame .tick ht) (congrArg Option.isSome (frame.warmup hu))

/-- An operation that writes one line's record in order. -/
theorem State.LinesOk.written {n : LineId} {ps : List Part} (frame : ChangesOnly ps s t) (only : OnlyLine n s t)
    (record : (t.line n).Ok s.tick s.warm) (ht : Part.tick ∉ ps) (hu : Part.startup ∉ ps) : t.LinesOk := fun m => by
  have tick : t.tick = s.tick := frame .tick ht
  have warm : t.warm = s.warm := congrArg Option.isSome (frame.warmup hu)
  rw [tick, warm]
  by_cases same : m = n
  · exact same ▸ record
  · rw [only m same]
    exact ok m

theorem State.LinesOk.setLine {n : LineId} {r : LineRecord} (record : r.Ok s.tick s.warm) : (s.setLine n r).LinesOk :=
  ok.written (s.setLine_changesOnly n r) (fun _ hm => s.setLine_line_other n r hm) (by simpa using record) (by decide)
    (by decide)

theorem State.LinesOk.post (c : Content) : (s.post c).LinesOk := ok.kept rfl rfl rfl

theorem State.LinesOk.followEdge (n : LineId) : (s.followEdge n).LinesOk := ok.setLine (ok n).followed

theorem State.LinesOk.followedReferenceEdge (n : LineId) : ((s.followEdge n).referenceEdgeAt n).LinesOk := by
  obtain ⟨frame, only, record, -, -⟩ := s.followedReferenceEdge_spec n
  exact ok.written frame only (record ▸ (ok n).followed.referenceEdge s.nowMs) (by decide) (by decide)

theorem State.LinesOk.takeEdgeIfWaiting (n : LineId) : (s.takeEdgeIfWaiting n).LinesOk := by
  unfold State.takeEdgeIfWaiting State.takeEdge
  split_ifs
  · exact ok.followedReferenceEdge n
  · exact ok.followEdge n
  · exact ok

theorem State.LinesOk.nextTick (levels : BitVec 16) : (s.nextTick levels).LinesOk := fun n => by
  rw [State.nextTick_line]
  exact (ok n).nextTick _

theorem State.LinesOk.restartNow (l : Link) : (s.restartNow l).LinesOk := by
  have cleared : (s.restartCleared l).LinesOk := fun n => by
    obtain ⟨range, -⟩ := ok n
    rw [State.restartCleared_line, State.restartCleared_tick]
    exact LineRecord.startAfresh_ok range
  rw [State.restartNow_eq]
  exact (ChangesOnly.foldl (fun s o => State.startOut_changesOnly o s) _ _).linesOk (cleared.post _) (by decide)
    (by decide) (by decide)

theorem State.LinesOk.restartIfDue : s.restartIfDue.LinesOk := by
  unfold State.restartIfDue
  split
  · split_ifs
    · exact ok.restartNow _
    · exact ok
  · exact ok

theorem answerLineSet_linesOk (l : Link) (line : Byte) (b : LineBlock) : (answerLineSet l line b s).state.LinesOk := by
  unfold answerLineSet
  split
  · exact ok
  · split
    · exact ok
    next read =>
      split
      · exact ok
      · exact (ok.setLine (LineRecord.startAfresh_ok (lineConfigOf_inRange read))).post _

/-! ### The step -/

/-- A request's answer decides what becomes of the lines: the response touches link records alone. -/
theorem serveRequest_linesOk {l : Link} {k : RequestKind} {i : Instr} {act : State → Answer}
    (h : serveRequest l k i act s = .next t) (acts : (act s).state.LinesOk) : t.LinesOk := by
  have responds : ∀ {u : State} (code : StatusCode) (b : List Byte), u.LinesOk → (u.respond l k.code code b).LinesOk :=
    fun _ _ ok => ok.kept rfl rfl rfl
  obtain rfl : s.unlessHeld (fun s => s.serve l k i act) = t := Host.Outcome.next.inj h
  unfold State.unlessHeld
  split_ifs
  · exact ok
  · change (s.serve l k i act).LinesOk
    rcases s.serve_cases l k i act with ⟨-, e⟩ | ⟨-, e⟩ | ⟨-, e⟩ | ⟨-, e⟩ | ⟨-, e⟩ <;> rw [e]
    · exact responds _ _ acts
    · exact responds _ _ ok
    · exact responds _ _ ok
    · exact ok.kept rfl rfl rfl
    · exact ok

/-- An event does nothing while the reset pin is held. -/
theorem unlessHeld_linesOk {f : State → State}
    (h : (.next (s.unlessHeld f) : Host.Outcome State Fault Refusal) = .next t) (acts : (f s).LinesOk) : t.LinesOk := by
  obtain rfl : s.unlessHeld f = t := Host.Outcome.next.inj h
  unfold State.unlessHeld
  split_ifs
  · exact ok
  · exact acts

end

theorem State.LinesOk.takeEdges (ns : List LineId) {s : State} (ok : s.LinesOk) :
    (ns.foldl State.takeEdgeIfWaiting s).LinesOk := by
  induction ns generalizing s with
  | nil => exact ok
  | cons n ns ih => exact ih (ok.takeEdgeIfWaiting n)

theorem Startup.responseEnds_warmupAt (l : Link) (u : Startup) : (u.responseEnds l).warmupAt = u.warmupAt := by
  unfold Startup.responseEnds
  split
  · split_ifs <;> rfl
  · rfl

/-- A full reset loads lines within their ranges and starts the warm-up (R147, R175, R176). -/
theorem execFullReset_linesOk {powerRose : Bool} {straps : BitVec 2} {s t : State}
    (h : execFullReset powerRose straps s = .next t) : t.LinesOk := by
  obtain ⟨u, reset, acts⟩ := execFullReset_acts (s := s) rfl powerRose straps
  obtain rfl := Host.Outcome.next.inj (reset.symm.trans h)
  obtain ⟨ranges, -⟩ := s.store.stopWrite.image.load_withinTheRules
  have loaded : (s.resetLoaded s.store.stopWrite.image powerRose straps).LinesOk := fun n => by
    rw [State.resetLoaded_line]
    exact LineRecord.fresh_ok ((lineInRange_iff _).2 (ranges n)) _
  rw [acts]
  exact (ChangesOnly.foldl (fun s o => State.startOut_changesOnly o s) _ _).linesOk (loaded.post _) (by decide)
    (by decide) (by decide)

/-- Every command keeps the line records in order: one that leaves lines, time and start-up control by its frame. -/
theorem exec_linesOk {i : Instr} {s t : State} (ok : s.LinesOk) (h : exec i s = .next t) : t.LinesOk := by
  by_cases apart : Part.lines ∉ touchedParts i ∧ Part.tick ∉ touchedParts i ∧ Part.startup ∉ touchedParts i
  · obtain ⟨u, runs, frame⟩ := exec_changesOnly i s
    obtain rfl := Host.Outcome.next.inj (runs.symm.trans h)
    exact frame.linesOk ok apart.1 apart.2.1 apart.2.2
  cases i with
  | status l => exact serveRequest_linesOk ok h (ok.kept rfl rfl rfl)
  | restart l => exact serveRequest_linesOk ok h (ok.kept rfl rfl rfl)
  | lineSet l n b => exact serveRequest_linesOk ok h (answerLineSet_linesOk ok l n b)
  | responseEnd l =>
    refine unlessHeld_linesOk ok h ?_
    split_ifs
    · refine State.LinesOk.restartIfDue (ok.kept rfl rfl ?_)
      exact congrArg Option.isSome (s.startup.responseEnds_warmupAt l)
    · exact ok
  | referenceEdge n =>
    refine unlessHeld_linesOk ok h ?_
    split_ifs
    · exact ok.followedReferenceEdge n
    · exact ok
  | nonReferenceEdge n =>
    refine unlessHeld_linesOk ok h ?_
    split_ifs
    · exact ok.followEdge n
    · exact ok
  | stallTimerExpiry n =>
    refine unlessHeld_linesOk ok h ?_
    simp only [Bool.and_eq_true, decide_eq_true_eq]
    split_ifs with due
    · exact ok.setLine ((ok n).stall due.1)
    · exact (ok.setLine ((ok n).stall due.1)).post _
    · exact ok
  | warmupExpiry =>
    refine unlessHeld_linesOk ok h ?_
    split_ifs with due
    · intro n
      have warm : s.warm = true := by
        cases running : s.startup.warmupAt with
        | none => simp [running] at due
        | some _ => rw [State.warm, running, Option.isSome_some]
      have record := ok n
      rw [warm] at record
      simpa [State.line, State.warm] using record.endWarmup
    · exact ok
  | storeWriteCompletion good =>
    refine unlessHeld_linesOk ok h ?_
    split
    next snapshot _ =>
      have written := s.completeWrite_changesOnly snapshot good
      exact (written.linesOk ok (by decide) (by decide) (by decide)).restartIfDue
    · exact ok
  | restartEffect => exact unlessHeld_linesOk ok h ok.restartIfDue
  | resetPinHeldLow => exact Host.Outcome.next.inj h ▸ ok.kept rfl rfl rfl
  | fullReset p x => exact execFullReset_linesOk h
  | captureTick levels => exact unlessHeld_linesOk ok h ((ok.takeEdges _).nextTick levels)
  | _ => exact absurd (by simp [touchedParts]) apart

/-- Settles O19: every command leaves each line record in order. -/
theorem lineRecordsStayInOrder : Obligations.LineRecordsStayInOrder := by
  unfold Obligations.LineRecordsStayInOrder
  intro s t ok h
  unfold step at h
  split at h
  · exact Host.Outcome.next.inj h ▸ ok
  next i rest _ => exact exec_linesOk (s := { s with pending := rest }) ok h

end Sys2Proof.Machine
end

/-! ## Conversion of a completed window -/

section
/-!
PROOFS. Conversion sorts the reading: the bounds of the duty, one value against its valid range and clamp band, the
quality of two such values, and the conversion of each kind of line (R149 to R156).
-/

namespace Sys2Proof.Machine

/-! ### P, D and the raw check -/

/-- R151: active time is a part of the span, so the duty lies in 0..10,000. -/
theorem duty_range {active span : Nat} (positive : 0 < span) (part : active ≤ span) :
    0 ≤ duty active span ∧ duty active span ≤ 10000 :=
  ⟨rounded_nonneg (by omega) (by omega), rounded_part_le (by decide) (by omega) (by omega)⟩

/-- R152: the limits of a working probe. -/
theorem rawCheck_iff (p d : Int) : rawCheck p d = true ↔ 25000 ≤ p ∧ p ≤ 1000000 ∧ 100 ≤ d ∧ d ≤ 9900 := by
  simp [rawCheck, and_assoc]

/-! ### Sorting values by R155 and R156 -/

/-- A value within the clamp band leaves the sorting limited to its valid range, good only if it lay in that range. -/
theorem sortValue_of_inBand {lo hi band x : Int} (order : lo ≤ hi) (above : lo - band ≤ x) (below : x ≤ hi + band) :
    sortValue lo hi band x =
      if lo ≤ x ∧ x ≤ hi then .good (clampInt lo hi x) else .clamped (clampInt lo hi x) := by
  simp only [sortValue, clampInt, Bool.and_eq_true, decide_eq_true_eq]
  split_ifs with valid low high
  · rw [min_eq_right valid.2, max_eq_right valid.1]
  · rw [min_eq_right (by omega), max_eq_left low.2.le]
  · rw [min_eq_left high.1.le, max_eq_right order]
  · omega

theorem sortValue_of_valid {lo hi : Int} (band : Int) {x : Int} (valid : lo ≤ x ∧ x ≤ hi) :
    sortValue lo hi band x = .good x := by
  simp [sortValue, valid]

/-- Beyond the clamp band a value is rejected; a band of 0 or more leaves no valid value out. -/
theorem sortValue_of_beyond {lo hi band x : Int} (order : lo ≤ hi) (wide : 0 ≤ band)
    (beyond : ¬(lo - band ≤ x ∧ x ≤ hi + band)) : sortValue lo hi band x = .rejected := by
  simp only [sortValue, Bool.and_eq_true, decide_eq_true_eq]
  rw [if_neg (by omega), if_neg (by omega), if_neg (by omega)]

@[simp] theorem quality_rejected_left (t : Sorted) : quality .rejected t = .range := rfl

@[simp] theorem quality_rejected_right (rh : Sorted) : quality rh .rejected = .range := by cases rh <;> rfl

/-- R156: two values in their bands that are not both valid make SATURATED, with each limited to its valid range. -/
theorem quality_of_clamped {lo hi band x lo' hi' band' y : Int} (order : lo ≤ hi) (order' : lo' ≤ hi')
    (inBand : lo - band ≤ x ∧ x ≤ hi + band) (inBand' : lo' - band' ≤ y ∧ y ≤ hi' + band')
    (clamped : ¬((lo ≤ x ∧ x ≤ hi) ∧ lo' ≤ y ∧ y ≤ hi')) :
    quality (sortValue lo hi band x) (sortValue lo' hi' band' y) =
      .saturated ⟨clampInt lo hi x, clampInt lo' hi' y⟩ := by
  rw [sortValue_of_inBand order inBand.1 inBand.2, sortValue_of_inBand order' inBand'.1 inBand'.2]
  by_cases valid : lo ≤ x ∧ x ≤ hi
  · have invalid' : ¬(lo' ≤ y ∧ y ≤ hi') := fun valid' => clamped ⟨valid, valid'⟩
    rw [if_pos valid, if_neg invalid', quality]
  · rw [if_neg valid]
    split_ifs <;> rfl

/-! ### Conversion by the line's kind -/

/-- The RH a reading holds before it is sorted: 0, a valid value, for a line that has none. -/
def heldHumidity (c : LineConfig) (p : Int) : Int := if c.kind = .air then humidity c p else 0

/-- The low end of the valid temperatures (R155). -/
def coldestValid (kind : LineKind) : Int := if kind = .surface then -1000 else 0

theorem coldestValid_le (kind : LineKind) : coldestValid kind ≤ 6000 := by cases kind <;> decide

theorem sortTemperature_eq (kind : LineKind) (x : Int) :
    sortTemperature kind x = sortValue (coldestValid kind) 6000 100 x := by
  cases kind <;> rfl

/-- A range that holds 0 asks something of the held RH on an AIR line only. -/
theorem heldHumidity_mem {lo hi : Int} (low : lo ≤ 0) (high : 0 ≤ hi) (c : LineConfig) (p : Int) :
    (lo ≤ heldHumidity c p ∧ heldHumidity c p ≤ hi) ↔ (c.kind = .air → lo ≤ humidity c p ∧ humidity c p ≤ hi) := by
  unfold heldHumidity
  split_ifs with air <;> simp [air, low, high]

theorem clampInt_heldHumidity (c : LineConfig) (p : Int) :
    clampInt 0 1000 (heldHumidity c p) = if c.kind = .air then max 0 (min 1000 (humidity c p)) else 0 := by
  unfold heldHumidity
  split_ifs <;> rfl

/-- A SURFACE line's RH sorts as the valid value 0, so that both kinds are sorted alike. -/
theorem convertRaw_of_works {c : LineConfig} {p d : Int} (on : c.kind ≠ .off)
    (works : 25000 ≤ p ∧ p ≤ 1000000 ∧ 100 ≤ d ∧ d ≤ 9900) :
    convertRaw c p d =
      quality (sortValue 0 1000 50 (heldHumidity c p))
        (sortValue (coldestValid c.kind) 6000 100 (temperature c d)) := by
  rw [convertRaw, if_pos ((rawCheck_iff p d).2 works), sortTemperature_eq]
  unfold heldHumidity
  cases kind : c.kind with
  | off => exact absurd kind on
  | air | surface => rfl

theorem convertRaw_of_fails {c : LineConfig} {p d : Int}
    (fails : ¬(25000 ≤ p ∧ p ≤ 1000000 ∧ 100 ≤ d ∧ d ≤ 9900)) : convertRaw c p d = .range :=
  if_neg (mt (rawCheck_iff p d).1 fails)

/-- Settles O22: the three outcomes of R155 and R156 on the held RH and the temperature. -/
theorem conversionSortsTheReading : Obligations.ConversionSortsTheReading := by
  unfold Obligations.ConversionSortsTheReading
  intro c span active on positive part p d rh t coldest works inBands valid edge
  have bands : inBands ↔ (0 - 50 ≤ heldHumidity c p ∧ heldHumidity c p ≤ 1000 + 50) ∧
      coldestValid c.kind - 100 ≤ t ∧ t ≤ 6000 + 100 :=
    and_congr (heldHumidity_mem (by decide) (by decide) c p).symm Iff.rfl
  have ranges : valid ↔ (0 ≤ heldHumidity c p ∧ heldHumidity c p ≤ 1000) ∧ coldestValid c.kind ≤ t ∧ t ≤ 6000 :=
    and_congr (heldHumidity_mem (by decide) (by decide) c p).symm Iff.rfl
  have sorted (w : works) : (convert c span active).2 =
      quality (sortValue 0 1000 50 (heldHumidity c p)) (sortValue (coldestValid c.kind) 6000 100 t) :=
    convertRaw_of_works on w
  obtain ⟨least, greatest⟩ := duty_range positive part
  refine ⟨rfl, least, greatest, fun out => ?_, fun w inside => ?_, fun w inside clamped => ?_⟩
  · by_cases w : works
    · rw [sorted w]
      rcases not_and_or.1 (mt bands.2 (out.resolve_left (not_not_intro w))) with beyond | beyond
      · rw [sortValue_of_beyond (by decide) (by decide) beyond, quality_rejected_left]
      · rw [sortValue_of_beyond (coldestValid_le c.kind) (by decide) beyond, quality_rejected_right]
    · exact convertRaw_of_fails w
  · obtain ⟨humid, warm⟩ := ranges.1 inside
    rw [sorted w, sortValue_of_valid 50 humid, sortValue_of_valid 100 warm]
    rfl
  · obtain ⟨humid, warm⟩ := bands.1 inside
    rw [sorted w, quality_of_clamped (by decide) (coldestValid_le c.kind) humid warm (mt ranges.2 clamped),
      clampInt_heldHumidity]
    rfl

end Sys2Proof.Machine
end

/-! ## The invariants of link records, the store and start-up control -/

section
/-!
PROOFS. Which owner a request command reaches, and that every command keeps link records, the store and start-up control
in order (R159, R160, R164, R172, R176, R178).
-/

namespace Sys2Proof.Machine

/-! ### A request and its owner -/

/-- Every request command is served by its owner, which writes no link record and leaves the reset pin (R163). -/
theorem exec_request {i : Instr} {l : Link} {k : RequestKind} {body : List Byte} (h : i.request? = some (l, k, body)) :
    ∃ act, (∀ s, exec i s = serveRequest l k i act s) ∧
      ∀ s, (act s).state.links = s.links ∧ (act s).state.startup.resetHeld = s.startup.resetHeld := by
  have framed : ∀ {ps : List Part} {act : State → Answer}, (∀ s, ChangesOnly ps s (act s).state) → Part.links ∉ ps →
      Part.startup ∉ ps →
      ∀ s, (act s).state.links = s.links ∧ (act s).state.startup.resetHeld = s.startup.resetHeld :=
    fun frame links startup s => ⟨frame s .links links, congrArg Startup.resetHeld (frame s .startup startup)⟩
  cases i with
  | status => cases h; exact ⟨_, fun _ => rfl, fun _ => ⟨rfl, rfl⟩⟩
  | lineGet =>
    cases h
    exact ⟨_, fun _ => rfl, fun s => by rw [answerLineGet_state]; exact ⟨rfl, rfl⟩⟩
  | lineSet =>
    cases h
    exact ⟨_, fun _ => rfl, framed (fun s => answerLineSet_changesOnly s _ _ _) (by decide) (by decide)⟩
  | zoneGet =>
    cases h
    exact ⟨_, fun _ => rfl, fun s => by rw [answerZoneGet_state]; exact ⟨rfl, rfl⟩⟩
  | zoneSet =>
    cases h
    exact ⟨_, fun _ => rfl, framed (fun s => answerZoneSet_changesOnly s _ _ _) (by decide) (by decide)⟩
  | zoneHold =>
    cases h
    exact ⟨_, fun _ => rfl, framed (fun s => answerZoneHold_changesOnly s _ _ _ _ _) (by decide) (by decide)⟩
  | zoneRelease =>
    cases h
    exact ⟨_, fun _ => rfl, framed (fun s => answerZoneRelease_changesOnly s _ _) (by decide) (by decide)⟩
  | zoneAck =>
    cases h
    exact ⟨_, fun _ => rfl, framed (fun s => answerZoneAck_changesOnly s _ _ _) (by decide) (by decide)⟩
  | outGet =>
    cases h
    exact ⟨_, fun _ => rfl, fun s => by rw [answerOutGet_state]; exact ⟨rfl, rfl⟩⟩
  | outSet => cases h; exact ⟨_, fun _ => rfl, framed (answerOutSet_changesOnly _ _ _) (by decide) (by decide)⟩
  | outClaim => cases h; exact ⟨_, fun _ => rfl, framed (answerOutClaim_changesOnly _ _ _ _) (by decide) (by decide)⟩
  | outDrop => cases h; exact ⟨_, fun _ => rfl, framed (answerOutDrop_changesOnly _ _) (by decide) (by decide)⟩
  | eventsFetch => cases h; exact ⟨_, fun _ => rfl, framed (answerEventsFetch_changesOnly _ _) (by decide) (by decide)⟩
  | eventsSeek => cases h; exact ⟨_, fun _ => rfl, framed (answerEventsSeek_changesOnly _ _ _) (by decide) (by decide)⟩
  | linkSet => cases h; exact ⟨_, fun _ => rfl, framed (answerLinkSet_changesOnly _ _ _ _ _) (by decide) (by decide)⟩
  | linkRank => cases h; exact ⟨_, fun _ => rfl, framed (answerLinkRank_changesOnly _ _ _ _) (by decide) (by decide)⟩
  | save => cases h; exact ⟨_, fun _ => rfl, framed answerSave_changesOnly (by decide) (by decide)⟩
  | restart => cases h; exact ⟨_, fun _ => rfl, fun _ => ⟨rfl, rfl⟩⟩
  | _ => nomatch h

section
variable {s t : State} {P : State → Prop}

/-- What responses and overruns keep, a request keeps that its owner keeps (R163, R164, R166). -/
theorem serveRequest_keeps {l : Link} {k : RequestKind} {i : Instr} {act : State → Answer}
    (h : serveRequest l k i act s = .next t) (before : P s) (acts : P (act s).state)
    (responds : ∀ u code b, P u → P (u.respond l k.code code b))
    (overruns : P (s.setLink l { s.link l with overrun := true })) : P t := by
  obtain rfl : s.unlessHeld (fun s => s.serve l k i act) = t := Host.Outcome.next.inj h
  unfold State.unlessHeld
  split_ifs
  · exact before
  · change P (s.serve l k i act)
    rcases s.serve_cases l k i act with ⟨-, e⟩ | ⟨-, e⟩ | ⟨-, e⟩ | ⟨-, e⟩ | ⟨-, e⟩ <;> rw [e]
    · exact responds _ _ _ acts
    · exact responds _ _ _ before
    · exact responds _ _ _ before
    · exact overruns
    · exact before

/-- An event changes nothing while the reset pin is held (R176). -/
theorem unlessHeld_keeps {f : State → State}
    (h : (.next (s.unlessHeld f) : Host.Outcome State Fault Refusal) = .next t) (before : P s) (acts : P (f s)) :
    P t := by
  obtain rfl : s.unlessHeld f = t := Host.Outcome.next.inj h
  unfold State.unlessHeld
  split_ifs
  · exact before
  · exact acts

end

/-! ### Link records -/

section
variable {held : Bool} {r : LinkRecord}

theorem LinkRecord.countDiscard_discarded_le (r : LinkRecord) : r.countDiscard.discarded ≤ 65535 := Nat.min_le_left ..

/-- A link that neither serves nor sends stays in order where the receiver moves it to such a state with a buffer and a
gap timer of that state (R159, R160). -/
theorem LinkRecord.Ok.receives (ok : r.Ok held) (receiving : r.rx ≠ .serving ∧ r.rx ≠ .sending) {rx : RxState}
    {buffer : List Byte} {gapAt : Option Nat} {count : Nat} (stays : rx ≠ .serving ∧ rx ≠ .sending)
    (announced : rx = .body →
      ∃ len bytes, buffer = len :: bytes ∧ 1 ≤ len.toNat ∧ len.toNat ≤ 61 ∧ bytes.length ≤ len.toNat)
    (absent : rx ≠ .body → buffer = []) (timer : gapAt.isSome = true ↔ rx = .length ∨ rx = .body ∨ rx = .drain)
    (most : count ≤ 65535) :
    ({ r with rx := rx, buffer := buffer, gapAt := gapAt, discarded := count } : LinkRecord).Ok held := by
  obtain ⟨-, -, -, serving, response, enable, -⟩ := ok
  exact ⟨announced, absent, timer, serving.trans (iff_of_false receiving.1 stays.1),
    response.trans (iff_of_false receiving.2 stays.2),
    fun power => (enable power).trans (iff_of_false receiving.2 stays.2), most⟩

/-- A frame discarded with its end unknown (R160). -/
theorem LinkRecord.Ok.drain (ok : r.Ok held) (receiving : r.rx ≠ .serving ∧ r.rx ≠ .sending) (tick : Nat) :
    (r.drain tick).Ok held :=
  ok.receives receiving (by decide) nofun (fun _ => rfl) (by simp [gapFrom]) r.countDiscard_discarded_le

/-- A frame discarded whose end is known (R161, R162). -/
theorem LinkRecord.Ok.discard (ok : r.Ok held) (receiving : r.rx ≠ .serving ∧ r.rx ≠ .sending) :
    ({ r.countDiscard with rx := .hunt, buffer := [], gapAt := none } : LinkRecord).Ok held :=
  ok.receives receiving (by decide) nofun (fun _ => rfl) (by simp) r.countDiscard_discarded_le

/-- The next byte of a frame whose length byte announces it (R160). -/
theorem LinkRecord.Ok.append (ok : r.Ok held) (body : r.rx = .body) (more : r.bodyComplete = false) (b : Byte)
    (tick : Nat) : ({ r with buffer := r.buffer ++ [b], gapAt := gapFrom tick } : LinkRecord).Ok held := by
  have room := ok
  obtain ⟨announced, -, -, -, -, -, most⟩ := room
  obtain ⟨len, bytes, buffer, least, greatest, -⟩ := announced body
  have short : bytes.length < len.toNat := by simpa [LinkRecord.bodyComplete, buffer] using more
  have := ok.receives (by simp [body]) (rx := .body) (buffer := r.buffer ++ [b]) (gapAt := gapFrom tick) (by decide)
    (fun _ => ⟨len, bytes ++ [b], by simp [buffer], least, greatest, by simpa using short⟩) (by simp)
    (by simp [gapFrom]) most
  rwa [← body] at this

/-- A request that is with its owner (R160, R163). -/
theorem LinkRecord.Ok.serves (ok : r.Ok held) (body : r.rx = .body) (i : Instr) :
    ({ r with rx := .serving, buffer := [], gapAt := none, serving := some i } : LinkRecord).Ok held := by
  obtain ⟨-, -, -, -, response, enable, most⟩ := ok
  exact ⟨nofun, fun _ => rfl, by simp, by simp, response.trans (by simp [body]),
    fun power => (enable power).trans (by simp [body]), most⟩

/-- The gap timer's expiry (R161). -/
theorem LinkRecord.Ok.gapExpire (ok : r.Ok held) : r.gapExpire.Ok held := by
  have kept := ok
  obtain ⟨-, absent, -, -, -, -, most⟩ := kept
  unfold LinkRecord.gapExpire
  split
  next length => exact ok.discard (by simp [length])
  next body => exact ok.discard (by simp [body])
  next drain =>
    exact ok.receives (by simp [drain]) (by decide) nofun (fun _ => absent (by simp [drain])) (by simp) most
  all_goals exact ok

/-- A response in transmission (R164). -/
theorem LinkRecord.Ok.sends (ok : r.Ok held) (frame : List Byte) :
    ({ r with rx := .sending, buffer := [], gapAt := none, overrun := false, serving := none, response := some frame,
              driverEnable := true } : LinkRecord).Ok held := by
  obtain ⟨-, -, -, -, -, -, most⟩ := ok
  exact ⟨nofun, fun _ => rfl, by simp, by simp, by simp, by simp, most⟩

/-- The end of a response (R164). -/
theorem LinkRecord.Ok.responseEnds (ok : r.Ok held) (sending : r.rx = .sending) :
    ({ r with rx := .hunt, response := none, driverEnable := false } : LinkRecord).Ok held := by
  obtain ⟨-, absent, timer, serving, -, -, most⟩ := ok
  exact ⟨nofun, fun _ => absent (by simp [sending]), timer.trans (by simp [sending]),
    serving.trans (by simp [sending]), by simp, by simp, most⟩

/-- The reset pin held low: the driver enable goes low (R176). -/
theorem LinkRecord.Ok.resetPinHeld (ok : r.Ok held) : ({ r with driverEnable := false } : LinkRecord).Ok true := by
  obtain ⟨announced, absent, timer, serving, response, -, most⟩ := ok
  exact ⟨announced, absent, timer, serving, response, nofun, most⟩

theorem LinkRecord.fresh_ok : LinkRecord.fresh.Ok held :=
  ⟨nofun, fun _ => rfl, by simp [fresh], by simp [fresh], by simp [fresh], by simp [fresh], Nat.zero_le _⟩

end

/-! ### The links of a state -/

section
variable {s t : State} (ok : s.LinksOk)
include ok

/-- An operation that leaves link records and reset pin keeps the records in order. -/
theorem State.LinksOk.kept (links : t.links = s.links) (held : t.startup.resetHeld = s.startup.resetHeld) :
    t.LinksOk := fun l => by
  rw [show t.link l = s.link l from congrArg (PerLink.get · l) links, held]
  exact ok l

theorem State.LinksOk.setLink {l : Link} {r : LinkRecord} (record : r.Ok s.startup.resetHeld) :
    (s.setLink l r).LinksOk := fun k => by
  rw [State.setLink_link]
  split_ifs
  · exact record
  · exact ok k

theorem State.LinksOk.respond (l : Link) (k : Byte) (c : StatusCode) (b : List Byte) : (s.respond l k c b).LinksOk :=
  ok.setLink ((ok l).sends _)

theorem State.LinksOk.dispatch {l : Link} (body : (s.link l).rx = .body) (kind : Byte) (bytes : List Byte) :
    (s.dispatch l kind bytes).LinksOk := by
  unfold State.dispatch
  split
  · exact ok.respond l _ _ _
  · exact ok.respond l _ _ _
  next i _ =>
    split_ifs
    · exact ok.respond l _ _ _
    · exact ok.setLink ((ok l).serves body i)

theorem State.LinksOk.checkFrame {l : Link} (body : (s.link l).rx = .body) (check : Byte) :
    (s.checkFrame l check).LinksOk := by
  simp only [State.checkFrame]
  split
  · split
    · exact ok.dispatch body _ _
    · exact ok
  · exact ok.setLink ((ok l).discard (by simp [body]))

/-- A character keeps its link's record in order (R160). -/
theorem State.LinksOk.receive (l : Link) (ch : Character) : (s.receive l ch).LinksOk := by
  have record := ok l
  obtain ⟨-, absent, -, -, -, -, most⟩ := record
  simp only [State.receive]
  split
  next hunt =>
    split_ifs
    · exact ok.setLink ((ok l).receives (by simp [hunt]) (by decide) nofun (fun _ => rfl) (by simp [gapFrom]) most)
    · exact ok
  next length =>
    split_ifs with refused
    · exact ok.setLink ((ok l).drain (by simp [length]) s.tick)
    · simp only [Bool.or_eq_true, decide_eq_true_eq, not_or] at refused
      obtain ⟨⟨-, least⟩, most'⟩ := refused
      exact ok.setLink ((ok l).receives (by simp [length]) (by decide)
        (fun _ => ⟨ch.data, [], rfl, by omega, by omega, Nat.zero_le _⟩) (by simp) (by simp [gapFrom]) most)
  next body =>
    split_ifs with _ complete
    · exact ok.setLink ((ok l).drain (by simp [body]) s.tick)
    · exact ok.checkFrame body _
    · exact ok.setLink ((ok l).append body (by simpa using complete) _ _)
  next drain =>
    have := (ok l).receives (by simp [drain]) (rx := .drain) (gapAt := gapFrom s.tick) (by decide) nofun
      (fun _ => absent (by simp [drain])) (by simp [gapFrom]) most
    rw [← drain] at this
    exact ok.setLink this
  all_goals exact ok.setLink (ok l)

end

/-! ### Every command -/

theorem State.restartNow_startup (s : State) (l : Link) :
    (s.restartNow l).startup =
      { s.startup with restart := none, causes := s.startup.causes.map (addCause (.restart l)) } := by
  rw [State.restartNow_eq]
  exact ChangesOnly.foldl (fun s o => State.startOut_changesOnly o s) _ _ .startup (by decide)

theorem State.restartIfDue_resetHeld (s : State) : s.restartIfDue.startup.resetHeld = s.startup.resetHeld := by
  unfold State.restartIfDue
  split
  · split_ifs
    · rw [State.restartNow_startup]
    · rfl
  · rfl

/-- A restart touches no link record. -/
theorem State.LinksOk.restartIfDue {s : State} (ok : s.LinksOk) : s.restartIfDue.LinksOk :=
  ok.kept (s.restartIfDue_changesOnly .links (by decide)) s.restartIfDue_resetHeld

/-- Full reset leaves links, store and start-up control as the load has them: the outputs that act after it touch none
of these (R126, R176). -/
theorem execFullReset_loads {powerRose : Bool} {straps : BitVec 2} {s t : State}
    (h : execFullReset powerRose straps s = .next t) :
    let loaded := s.resetLoaded s.store.stopWrite.image powerRose straps
    t.links = loaded.links ∧ t.store = loaded.store ∧ t.startup = loaded.startup := by
  obtain ⟨u, reset, acts⟩ := execFullReset_acts (s := s) rfl powerRose straps
  obtain rfl := Host.Outcome.next.inj (reset.symm.trans h)
  have outs := ChangesOnly.foldl (fun s o => State.startOut_changesOnly o s) (List.finRange 4)
    ((s.resetLoaded s.store.stopWrite.image powerRose straps).post
      (.start (resetCause powerRose) s.store.stopWrite.image.load.2))
  rw [← acts] at outs
  exact ⟨outs .links (by decide), outs .store (by decide), outs .startup (by decide)⟩

/-- Every command keeps the link records in order: a request by its owner, an event of no link by its frame. -/
theorem exec_linksOk {i : Instr} {s t : State} (ok : s.LinksOk) (h : exec i s = .next t) : t.LinksOk := by
  rcases request : i.request? with - | ⟨l, k, body⟩
  case some =>
    obtain ⟨act, served, owner⟩ := exec_request request
    exact serveRequest_keeps ((served s).symm.trans h) ok (ok.kept (owner s).1 (owner s).2)
      (fun _ _ _ ok => ok.respond l _ _ _) (ok.setLink (ok l))
  by_cases apart : Part.links ∉ touchedParts i ∧ Part.startup ∉ touchedParts i
  · obtain ⟨u, runs, frame⟩ := exec_changesOnly i s
    obtain rfl := Host.Outcome.next.inj (runs.symm.trans h)
    exact ok.kept (frame .links apart.1) (congrArg Startup.resetHeld (frame .startup apart.2))
  cases i with
  | characterReceived l ch => exact unlessHeld_keeps h ok (ok.receive l ch)
  | gapTimerExpiry l =>
    refine unlessHeld_keeps h ok ?_
    split_ifs
    · exact ok.setLink (ok l).gapExpire
    · exact ok
  | responseEnd l =>
    refine unlessHeld_keeps h ok ?_
    split_ifs with sending
    · have freed := ok.setLink (l := l) ((ok l).responseEnds sending)
      exact State.LinksOk.restartIfDue (freed.kept rfl (by exact s.startup.responseEnds_resetHeld l))
    · exact ok
  | warmupExpiry =>
    refine unlessHeld_keeps h ok ?_
    split_ifs
    · exact ok.kept rfl rfl
    · exact ok
  | storeWriteCompletion good =>
    refine unlessHeld_keeps h ok ?_
    split
    next snapshot _ =>
      have written := s.completeWrite_changesOnly snapshot good
      exact (ok.kept (written .links (by decide))
        (congrArg Startup.resetHeld (written .startup (by decide)))).restartIfDue
    · exact ok
  | restartEffect => exact unlessHeld_keeps h ok ok.restartIfDue
  | resetPinHeldLow =>
    obtain rfl := Host.Outcome.next.inj h
    intro l
    rw [State.link, PerLink.get_map]
    exact (ok l).resetPinHeld
  | fullReset p x =>
    obtain ⟨links, -, -⟩ := execFullReset_loads h
    intro l
    rw [State.link, links, show (s.resetLoaded _ p x).links = .all LinkRecord.fresh from rfl, PerLink.get_all]
    exact LinkRecord.fresh_ok
  | _ => simp [Instr.request?, touchedParts] at request apart

/-! ### The store and start-up control -/

section
variable {s t : State} (ok : s.StartupOk)
include ok

/-- What start-up control reads is as before. -/
theorem State.StartupOk.kept (store : t.store = s.store) (supply : t.startup.probeSupply = s.startup.probeSupply)
    (restart : t.startup.restart = s.startup.restart) (held : t.startup.resetHeld = s.startup.resetHeld) :
    t.StartupOk := by
  unfold State.StartupOk
  rw [store, supply, restart, held]
  exact ok

/-- A SAVE makes the image invalid before it writes (R172, R173). -/
theorem answerSave_startupOk : (answerSave s).state.StartupOk := by
  unfold answerSave
  split
  · obtain ⟨-, supply, -⟩ := ok
    exact ⟨fun _ => rfl, supply, fun _ _ _ due => nomatch due.2⟩
  · exact ok

end

/-- A restart that is due takes effect, so that none is left pending with its two conditions met (R178). -/
theorem State.restartIfDue_startupOk {s : State} (image : s.store.state ≠ .idle → s.store.image.valid = false)
    (supply : s.startup.probeSupply = !s.startup.resetHeld) : s.restartIfDue.StartupOk := by
  by_cases due : ∃ p, s.startup.restart = some p ∧ p.responseEnded = true ∧ s.store.state = .idle
  · obtain ⟨p, pending, ended, idle⟩ := due
    rw [State.restartIfDue_due pending ended idle]
    have store : (s.restartNow p.link).store = s.store := s.restartNow_changesOnly p.link .store (by decide)
    unfold State.StartupOk
    rw [store, State.restartNow_startup]
    exact ⟨image, supply, nofun⟩
  · have waits : ∀ p, s.startup.restart = some p → ¬(p.responseEnded = true ∧ s.store.state = .idle) :=
      fun p pending met => due ⟨p, pending, met⟩
    rw [State.restartIfDue_early fun p pending => by simpa [imp_iff_not_or] using waits p pending]
    exact ⟨image, supply, fun _ => waits⟩

theorem Startup.responseEnds_probeSupply (l : Link) (u : Startup) :
    (u.responseEnds l).probeSupply = u.probeSupply := by
  unfold Startup.responseEnds
  split
  · split_ifs <;> rfl
  · rfl

/-- Every command keeps the store and start-up control in order: one that touches neither by its frame. -/
theorem exec_startupOk {i : Instr} {s t : State} (ok : s.StartupOk) (h : exec i s = .next t) : t.StartupOk := by
  have before := ok
  obtain ⟨image, supply, -⟩ := before
  by_cases apart : Part.store ∉ touchedParts i ∧ Part.startup ∉ touchedParts i
  · obtain ⟨u, runs, frame⟩ := exec_changesOnly i s
    obtain rfl := Host.Outcome.next.inj (runs.symm.trans h)
    have startup : u.startup = s.startup := frame .startup apart.2
    exact ok.kept (frame .store apart.1) (by rw [startup]) (by rw [startup]) (by rw [startup])
  cases i with
  | status l => exact serveRequest_keeps h ok (ok.kept rfl rfl rfl rfl) (fun _ _ _ ok => ok) ok
  | save l => exact serveRequest_keeps h ok (answerSave_startupOk ok) (fun _ _ _ ok => ok) ok
  | restart l =>
    refine serveRequest_keeps h ok ⟨image, supply, fun _ p pending met => ?_⟩ (fun _ _ _ ok => ok) ok
    obtain rfl : (⟨l, false⟩ : RestartPending) = p := Option.some.inj pending
    exact nomatch met.1
  | responseEnd l =>
    refine unlessHeld_keeps h ok ?_
    split_ifs
    · refine State.restartIfDue_startupOk image ?_
      rw [Startup.responseEnds_probeSupply, Startup.responseEnds_resetHeld]
      exact supply
    · exact ok
  | warmupExpiry =>
    refine unlessHeld_keeps h ok ?_
    split_ifs
    · exact ok.kept rfl rfl rfl rfl
    · exact ok
  | storeWriteCompletion good =>
    refine unlessHeld_keeps h ok ?_
    split
    · exact State.restartIfDue_startupOk (fun writes => absurd rfl writes) supply
    · exact ok
  | restartEffect => exact unlessHeld_keeps h ok (State.restartIfDue_startupOk image supply)
  | resetPinHeldLow =>
    obtain rfl := Host.Outcome.next.inj h
    refine ⟨fun writes => absurd ?_ writes, rfl, nofun⟩
    rw [Store.stopWrite_eq]
  | fullReset p x =>
    obtain ⟨-, store, startup⟩ := execFullReset_loads h
    unfold State.StartupOk
    rw [store, startup]
    exact ⟨fun writes => absurd rfl writes, rfl, nofun⟩
  | _ => exact absurd (by simp [touchedParts]) apart

/-- Settles O59: every command leaves each link record, the store and start-up control in order. -/
theorem linksStoreAndStartupStayInOrder : Obligations.LinksStoreAndStartupStayInOrder := by
  unfold Obligations.LinksStoreAndStartupStayInOrder
  intro s t h
  unfold step at h
  split at h
  · exact Host.Outcome.next.inj h ▸ ⟨id, id⟩
  next i rest _ =>
    exact ⟨fun ok => exec_linksOk (s := { s with pending := rest }) ok h,
      fun ok => exec_startupOk (s := { s with pending := rest }) ok h⟩

end Sys2Proof.Machine
end

/-! ## Requests and their bodies -/

section
/-!
PROOFS. A request's body read back, and the lengths that each kind's body has (R158, R163, R169).
-/

namespace Sys2Proof.Machine

/-! ### Values of two and four bytes -/

/-- A two-byte value is read back from its bytes (R158). -/
@[simp] theorem half_extract (x : Half) : half (x.extractLsb' 0 8) (x.extractLsb' 8 8) = x := by
  simp only [half, BitVec.extractLsb'_append_extractLsb'_eq_extractLsb', BitVec.extractLsb'_eq_self]

/-- A four-byte value is read back from its bytes (R158). -/
@[simp] theorem word_extract (x : Word) :
    word (x.extractLsb' 0 8) (x.extractLsb' 8 8) (x.extractLsb' 16 8) (x.extractLsb' 24 8) = x := by
  simp only [word, BitVec.extractLsb'_append_extractLsb'_eq_extractLsb', BitVec.extractLsb'_eq_self]

/-- One byte holds the value of a Nat below 256. -/
theorem byteOf_toNat {n : Nat} (h : n < 256) : (byteOf n).toNat = n := by
  rw [byteOf, BitVec.toNat_ofNat, Nat.mod_eq_of_lt h]

/-! ### Bodies read back -/

theorem decodeLineBlock_encode (b : LineBlock) : decodeLineBlock (encodeLineBlock b) = some b := by
  simp [encodeLineBlock, wordBytes, halfBytes, decodeLineBlock]

theorem decodeOutBlock_encode (b : OutBlock) : decodeOutBlock (encodeOutBlock b) = some b := by
  simp [encodeOutBlock, halfBytes, decodeOutBlock]

/-- The surface count parts the surface lines from the 17 bytes after them (R169). -/
theorem decodeZoneBlock_encode {b : ZoneBlock} (h : b.fitsFrame = true) :
    decodeZoneBlock (encodeZoneBlock b) = some b := by
  have count : (byteOf b.surfaces.length).toNat = b.surfaces.length :=
    byteOf_toNat (by simp only [ZoneBlock.fitsFrame, decide_eq_true_eq] at h; omega)
  simp [encodeZoneBlock, decodeZoneBlock, count, halfBytes, decodeZoneTail]

theorem RequestKind.ofCode_code (k : RequestKind) : RequestKind.ofCode k.code = some k := by
  cases k <;> rfl

/-- A well-formed request's body is read back under its kind (R163, R169). -/
theorem decodeBody_request {i : Instr} {l : Link} {k : RequestKind} {body : List Byte}
    (h : i.request? = some (l, k, body)) (fits : i.wellFormed = true) : decodeBody l k body = some i := by
  cases i with
  | status | lineGet | zoneGet | zoneRelease | outGet | outDrop | eventsFetch | linkRank | save | restart =>
    cases h
    rfl
  | lineSet => cases h; simp [decodeBody, decodeWith, decodeLineBlock_encode]
  | zoneSet => cases h; simp [decodeBody, decodeWith, decodeZoneBlock_encode fits]
  | outSet => cases h; simp [decodeBody, decodeWith, decodeOutBlock_encode]
  | zoneHold => cases h; simp [decodeBody, decode5, halfBytes]
  | zoneAck | eventsSeek => cases h; simp [decodeBody, decode3, halfBytes]
  | outClaim => cases h; simp [decodeBody, decode4, halfBytes]
  | linkSet => cases h; simp [decodeBody, decode6, halfBytes]
  | _ => nomatch h

/-- A request is well-formed exactly when its body fits a frame (R163, R168). -/
theorem wellFormed_iff_fits {i : Instr} {l : Link} {k : RequestKind} {body : List Byte}
    (h : i.request? = some (l, k, body)) : i.wellFormed = true ↔ body.length ≤ 60 := by
  cases i with
  | zoneSet l z b =>
    obtain ⟨shape, fits⟩ := Laws.RequestBody.zoneSet l z b
    rw [fits]
    simp only [h, Option.map_some] at shape
    simp only [← shape, Option.some.injEq, forall_eq']
  | status | lineGet | lineSet | zoneGet | zoneHold | zoneRelease | zoneAck | outGet | outSet | outClaim | outDrop
  | eventsFetch | eventsSeek | linkSet | linkRank | save | restart =>
    cases h
    exact iff_of_true rfl (Nat.le_of_ble_eq_true rfl)
  | _ => nomatch h

/-- Settles O3: the kind's code names the kind, and under it the body is read back. -/
theorem requestDecodingInvertsEncoding : Obligations.RequestDecodingInvertsEncoding := by
  unfold Obligations.RequestDecodingInvertsEncoding
  intro i l k body request
  refine ⟨fun fits => ?_, wellFormed_iff_fits request⟩
  rw [decodeRequest, RequestKind.ofCode_code]
  simp only [decodeBody_request request fits]

/-! ### Bodies by their lengths -/

/-- A reader that takes the bodies of `n` bytes and no others, and makes of them only what `made` says. -/
def ReadsLength {α : Type} (n : Nat) (made : α → Prop) (read : List Byte → Option α) : Prop :=
  ∀ body, (body.length = n → ∃ x, read body = some x ∧ made x) ∧ (body.length ≠ n → read body = none)

section
variable {α : Type} {n : Nat} {made : α → Prop}

theorem ReadsLength.isSome_iff {read : List Byte → Option α} (h : ReadsLength n made read) (body : List Byte) :
    (read body).isSome = true ↔ body.length = n := by
  obtain ⟨taken, refused⟩ := h body
  by_cases len : body.length = n
  · obtain ⟨x, some, -⟩ := taken len
    simp [some, len]
  · simp [refused len, len]

theorem ReadsLength.made_of_some {read : List Byte → Option α} (h : ReadsLength n made read) {body : List Byte} {x : α}
    (some : read body = some x) : made x := by
  obtain ⟨y, same, made⟩ := (h body).1 ((h.isSome_iff body).1 (by rw [some, Option.isSome_some]))
  exact Option.some.inj (same.symm.trans some) ▸ made

theorem decode0_reads {x : α} (h : made x) : ReadsLength 0 made (decode0 x) := fun body =>
  ⟨fun len => match body, len with | [], _ => ⟨_, rfl, h⟩,
    fun len => by unfold decode0; split; exacts [absurd rfl len, rfl]⟩

theorem decode1_reads {f : Byte → α} (h : ∀ x, made (f x)) : ReadsLength 1 made (decode1 f) := fun body =>
  ⟨fun len => match body, len with | [x], _ => ⟨_, rfl, h x⟩,
    fun len => by unfold decode1; split; exacts [absurd rfl len, rfl]⟩

theorem decode2_reads {f : Byte → Byte → α} (h : ∀ x y, made (f x y)) : ReadsLength 2 made (decode2 f) := fun body =>
  ⟨fun len => match body, len with | [x, y], _ => ⟨_, rfl, h x y⟩,
    fun len => by unfold decode2; split; exacts [absurd rfl len, rfl]⟩

theorem decode3_reads {f : Byte → Byte → Byte → α} (h : ∀ x y z, made (f x y z)) : ReadsLength 3 made (decode3 f) :=
  fun body =>
  ⟨fun len => match body, len with | [x, y, z], _ => ⟨_, rfl, h x y z⟩,
    fun len => by unfold decode3; split; exacts [absurd rfl len, rfl]⟩

theorem decode4_reads {f : Byte → Byte → Byte → Byte → α} (h : ∀ x y z w, made (f x y z w)) :
    ReadsLength 4 made (decode4 f) := fun body =>
  ⟨fun len => match body, len with | [x, y, z, w], _ => ⟨_, rfl, h x y z w⟩,
    fun len => by unfold decode4; split; exacts [absurd rfl len, rfl]⟩

theorem decode5_reads {f : Byte → Byte → Byte → Byte → Byte → α} (h : ∀ x y z w v, made (f x y z w v)) :
    ReadsLength 5 made (decode5 f) := fun body =>
  ⟨fun len => match body, len with | [x, y, z, w, v], _ => ⟨_, rfl, h x y z w v⟩,
    fun len => by unfold decode5; split; exacts [absurd rfl len, rfl]⟩

theorem decode6_reads {f : Byte → Byte → Byte → Byte → Byte → Byte → α} (h : ∀ x y z w v u, made (f x y z w v u)) :
    ReadsLength 6 made (decode6 f) := fun body =>
  ⟨fun len => match body, len with | [x, y, z, w, v, u], _ => ⟨_, rfl, h x y z w v u⟩,
    fun len => by unfold decode6; split; exacts [absurd rfl len, rfl]⟩

theorem decodeLineBlock_reads : ReadsLength 21 (fun _ => True) decodeLineBlock := fun body =>
  ⟨fun len => match body, len with
      | [_, _, _, _, _, _, _, _, _, _, _, _, _, _, _, _, _, _, _, _, _], _ => ⟨_, rfl, trivial⟩,
    fun len => by unfold decodeLineBlock; split; exacts [absurd rfl len, rfl]⟩

theorem decodeOutBlock_reads : ReadsLength 13 (fun _ => True) decodeOutBlock := fun body =>
  ⟨fun len => match body, len with
      | [_, _, _, _, _, _, _, _, _, _, _, _, _], _ => ⟨_, rfl, trivial⟩,
    fun len => by unfold decodeOutBlock; split; exacts [absurd rfl len, rfl]⟩

theorem decodeZoneTail_reads (air : Byte) (surfaces : List Byte) :
    ReadsLength 17 (fun _ => True) (decodeZoneTail air surfaces) := fun body =>
  ⟨fun len => match body, len with
      | [_, _, _, _, _, _, _, _, _, _, _, _, _, _, _, _, _], _ => ⟨_, rfl, trivial⟩,
    fun len => by unfold decodeZoneTail; split; exacts [absurd rfl len, rfl]⟩

theorem decodeWith_reads {β : Type} {block : List Byte → Option β} {f : Byte → β → α}
    (h : ReadsLength n (fun _ => True) block) (made' : ∀ x b, made (f x b)) :
    ReadsLength (n + 1) made (decodeWith block f) := fun body => by
  cases body with
  | nil => exact ⟨nofun, fun _ => rfl⟩
  | cons x rest =>
    obtain ⟨taken, refused⟩ := h rest
    refine ⟨fun len => ?_, fun len => ?_⟩
    · obtain ⟨b, some, -⟩ := taken (by simpa using len)
      exact ⟨f x b, by simp [decodeWith, some], made' x b⟩
    · simp [decodeWith, refused (by simpa using len)]

end

/-- A zone block is read when 17 bytes follow the surface lines that its count announces (R169). -/
theorem decodeZoneBlock_isSome_iff (body : List Byte) :
    (decodeZoneBlock body).isSome = true ↔ 2 ≤ body.length ∧ body.length = 19 + (body.getD 1 0).toNat := by
  rcases body with - | ⟨air, - | ⟨n, rest⟩⟩
  · simp [decodeZoneBlock]
  · simp [decodeZoneBlock]
  · rw [decodeZoneBlock, (decodeZoneTail_reads air _).isSome_iff]
    simp only [List.length_drop, List.length_cons, List.getD_cons_succ, List.getD_cons_zero]
    omega

/-- The body's length that each kind has; ZONE SET's follows its surface count (R163). -/
def kindBodyLength : RequestKind → Option Nat
  | .status | .save | .restart => some 0
  | .lineGet | .zoneRelease | .outGet | .outDrop | .eventsFetch => some 1
  | .zoneGet => some 2
  | .zoneAck | .eventsSeek | .linkRank => some 3
  | .outClaim => some 4
  | .zoneHold => some 5
  | .linkSet => some 6
  | .outSet => some 14
  | .lineSet => some 22
  | .zoneSet => none

/-- A request of this link and kind. -/
def IsRequest (l : Link) (k : RequestKind) (i : Instr) : Prop := ∃ body, i.request? = some (l, k, body)

/-- A kind of a fixed body length reads the bodies of that length, as requests of its kind. -/
theorem decodeBody_reads (l : Link) {k : RequestKind} {n : Nat} (h : kindBodyLength k = some n) :
    ReadsLength n (IsRequest l k) (decodeBody l k) := by
  cases k with
  | status | save | restart => cases h; exact decode0_reads ⟨_, rfl⟩
  | lineGet | zoneRelease | outGet | outDrop | eventsFetch => cases h; exact decode1_reads fun _ => ⟨_, rfl⟩
  | zoneGet => cases h; exact decode2_reads fun _ _ => ⟨_, rfl⟩
  | zoneAck | eventsSeek | linkRank => cases h; exact decode3_reads fun _ _ _ => ⟨_, rfl⟩
  | outClaim => cases h; exact decode4_reads fun _ _ _ _ => ⟨_, rfl⟩
  | zoneHold => cases h; exact decode5_reads fun _ _ _ _ _ => ⟨_, rfl⟩
  | linkSet => cases h; exact decode6_reads fun _ _ _ _ _ _ => ⟨_, rfl⟩
  | outSet => cases h; exact decodeWith_reads decodeOutBlock_reads fun _ _ => ⟨_, rfl⟩
  | lineSet => cases h; exact decodeWith_reads decodeLineBlock_reads fun _ _ => ⟨_, rfl⟩
  | zoneSet => nomatch h

/-- What is read under a kind is a request of that kind. -/
theorem decodeBody_isRequest {l : Link} {k : RequestKind} {body : List Byte} {i : Instr}
    (h : decodeBody l k body = some i) : IsRequest l k i := by
  rcases fixed : kindBodyLength k with - | n
  · obtain rfl : k = .zoneSet := by
      cases k with
      | zoneSet => rfl
      | _ => nomatch fixed
    cases body with
    | nil => nomatch h
    | cons z rest =>
      obtain ⟨b, -, rfl⟩ := Option.map_eq_some_iff.1 h
      exact ⟨_, rfl⟩
  · exact (decodeBody_reads l fixed).made_of_some h

/-- Settles O5: each kind by its own length, and ZONE SET by the count in its block. -/
theorem bodyLengthsAreTheTables : Obligations.BodyLengthsAreTheTables := by
  unfold Obligations.BodyLengthsAreTheTables
  intro l k body
  cases k with
  | zoneSet =>
    cases body with
    | nil => simp [decodeBody, decodeWith]
    | cons z rest =>
      simp only [decodeBody, decodeWith, Option.isSome_map, decodeZoneBlock_isSome_iff, List.length_cons,
        List.getD_cons_succ]
      omega
  | _ => exact (decodeBody_reads l rfl).isSome_iff body

end Sys2Proof.Machine
end

/-! ## The receiver, and requests that no owner takes -/

section
/-!
PROOFS. Requests that no owner takes, the receiver's table and its gap timer, the dispatch of a valid frame, a request's
frame received whole, and the end of a response (R158 to R164, R166, R176, R178).
-/

namespace Sys2Proof.Machine

/-! ### Requests that no owner takes -/

section
variable {l : Link} {i : Instr} {s : State} (notHeld : s.startup.resetHeld = false) (k : RequestKind)
  (act : State → Answer)
include notHeld

/-- A request answered at once: nothing but its link changes (R163). -/
theorem serveRequest_answered {c : StatusCode} (h : s.serve l k i act = s.respond l k.code c []) :
    ∃ t, serveRequest l k i act s = .next t ∧ ChangesOnly [.links] s t ∧ Replies l k.code c [] s t :=
  ⟨_, by rw [serveRequest, State.unlessHeld_of _ _ notHeld, h], s.respond_changesOnly l _ _ _,
    State.respond_replies l _ _ _ rfl⟩

theorem serveRequest_badLength (h : s.admission l i = .badLength) :
    ∃ t, serveRequest l k i act s = .next t ∧ ChangesOnly [.links] s t ∧ Replies l k.code .badLength [] s t :=
  serveRequest_answered notHeld k act (by rw [State.serve, h])

theorem serveRequest_restarting (h : s.admission l i = .restarting) :
    ∃ t, serveRequest l k i act s = .next t ∧ ChangesOnly [.links] s t ∧ Replies l k.code .restarting [] s t :=
  serveRequest_answered notHeld k act (by rw [State.serve, h])

theorem serveRequest_overrun (h : s.admission l i = .overrun) :
    serveRequest l k i act s = .next (s.setLink l { s.link l with overrun := true }) := by
  rw [serveRequest, State.unlessHeld_of _ _ notHeld, State.serve, h]

theorem serveRequest_lost (h : s.admission l i = .lost) : serveRequest l k i act s = .next s := by
  rw [serveRequest, State.unlessHeld_of _ _ notHeld, State.serve, h]

end

/-- Settles O6: the admission of a request command, state by state of its link. -/
theorem untakenRequestsChangeOnlyTheirLink : Obligations.UntakenRequestsChangeOnlyTheirLink := by
  unfold Obligations.UntakenRequestsChangeOnlyTheirLink
  intro i l k body s request
  obtain ⟨act, served, -⟩ := exec_request request
  rw [served]
  refine ⟨fun held => by rw [serveRequest, State.unlessHeld_held _ _ held], fun notHeld =>
    ⟨fun hunt long => ?_, fun hunt fits pending other => ?_, fun serving mine pending same => ?_, fun busy => ?_,
      fun midFrame => ?_⟩⟩
  · exact serveRequest_badLength notHeld k act (by simp [State.admission, hunt, long])
  · exact serveRequest_restarting notHeld k act (by simp [State.admission, hunt, fits, pending, other])
  · exact serveRequest_restarting notHeld k act (by rw [State.admission, serving]; simp [mine, pending, same])
  · refine serveRequest_overrun notHeld k act ?_
    rcases busy with sending | ⟨serving, other⟩
    · simp [State.admission, sending]
    · simp [State.admission, serving, other]
  · refine serveRequest_lost notHeld k act ?_
    rcases midFrame with length | body | drain
    · simp [State.admission, length]
    · simp [State.admission, body]
    · simp [State.admission, drain]

/-! ### Characters in error -/

/-- Ones folded into a parity bit are counted by their odd count. -/
theorem foldl_parity (f : Nat → Bool) (ks : List Nat) (p : Bool) :
    ks.foldl (fun p k => p != f k) p = (p != decide (ks.countP f % 2 = 1)) := by
  induction ks generalizing p with
  | nil => simp
  | cons k ks ih =>
    have flips : (ks.countP f + 1) % 2 = 1 ↔ ¬ks.countP f % 2 = 1 := by omega
    rw [List.foldl_cons, ih, List.countP_cons]
    cases f k with
    | false => simp
    | true =>
      simp only [if_true, flips, decide_not, Bool.bne_true]
      cases p <;> simp

theorem oddOnes_iff (b : Byte) : oddOnes b = true ↔ (List.range 8).countP (fun k => b.getLsbD k) % 2 = 1 := by
  rw [oddOnes, foldl_parity]
  simp

/-- A character is in error by its parity or its stop bit (R158). -/
theorem Character.isError_iff (ch : Character) :
    ch.isError = true ↔
      ((List.range 8).countP (fun k => ch.data.getLsbD k) + (if ch.parity then 1 else 0)) % 2 = 1 ∨
        ch.stop = false := by
  have stop : ch.isError = true ↔ (oddOnes ch.data != ch.parity) = true ∨ ch.stop = false := by
    simp [Character.isError]
  rw [stop, bne_iff_ne, ne_eq, Bool.eq_iff_iff, oddOnes_iff]
  refine or_congr_left ?_
  cases ch.parity with
  | false => simp
  | true =>
    simp only [iff_true, if_true]
    omega

@[simp] theorem characterOf_isError (b : Byte) : (characterOf b).isError = false := by
  simp [characterOf, Character.isError]

@[simp] theorem characterOf_data (b : Byte) : (characterOf b).data = b := rfl

/-! ### One character at a link -/

theorem execCharacterReceived_of {s : State} (notHeld : s.startup.resetHeld = false) (l : Link) (ch : Character) :
    exec (.characterReceived l ch) s = .next (s.receive l ch) :=
  congrArg Host.Outcome.next (s.unlessHeld_of _ notHeld)

section
variable {l : Link} {ch : Character} {s : State}

theorem State.receive_lead (hunt : (s.link l).rx = .hunt) (lead : ch.data = 0xC5) (good : ch.isError = false) :
    s.receive l ch = s.setLink l { s.link l with rx := .length, buffer := [], gapAt := gapFrom s.tick } := by
  simp [State.receive, hunt, lead, good]

theorem State.receive_noise (hunt : (s.link l).rx = .hunt) (noise : ch.data ≠ 0xC5 ∨ ch.isError = true) :
    s.receive l ch = s := by
  simp only [State.receive, hunt]
  rw [if_neg]
  simp only [Bool.and_eq_true, decide_eq_true_eq, Bool.not_eq_true', not_and, Bool.not_eq_false]
  exact fun lead => noise.resolve_left (not_not_intro lead)

theorem State.receive_badLength (length : (s.link l).rx = .length)
    (bad : ch.isError = true ∨ ch.data.toNat = 0 ∨ 62 ≤ ch.data.toNat) :
    s.receive l ch = s.setLink l ((s.link l).drain s.tick) := by
  simp only [State.receive, length]
  rw [if_pos (by simpa [or_assoc] using bad)]

theorem State.receive_length (length : (s.link l).rx = .length) (good : ch.isError = false)
    (least : 1 ≤ ch.data.toNat) (most : ch.data.toNat ≤ 61) :
    s.receive l ch = s.setLink l { s.link l with rx := .body, buffer := [ch.data], gapAt := gapFrom s.tick } := by
  simp only [State.receive, length]
  have refused : ¬(ch.data.toNat = 0 ∨ 62 ≤ ch.data.toNat) := by omega
  rw [if_neg (by simpa [good] using refused)]

theorem State.receive_bodyError (body : (s.link l).rx = .body) (bad : ch.isError = true) :
    s.receive l ch = s.setLink l ((s.link l).drain s.tick) := by
  simp [State.receive, body, bad]

theorem State.receive_byte (body : (s.link l).rx = .body) (good : ch.isError = false) {len : Byte} {bytes : List Byte}
    (buffer : (s.link l).buffer = len :: bytes) (more : bytes.length < len.toNat) :
    s.receive l ch =
      s.setLink l { s.link l with buffer := (s.link l).buffer ++ [ch.data], gapAt := gapFrom s.tick } := by
  have incomplete : (s.link l).bodyComplete = false := by simpa [LinkRecord.bodyComplete, buffer] using more
  simp [State.receive, body, good, incomplete]

theorem State.receive_check (body : (s.link l).rx = .body) (good : ch.isError = false) {len : Byte} {bytes : List Byte}
    (buffer : (s.link l).buffer = len :: bytes) (full : len.toNat ≤ bytes.length) :
    s.receive l ch = s.checkFrame l ch.data := by
  have complete : (s.link l).bodyComplete = true := by simpa [LinkRecord.bodyComplete, buffer] using full
  simp [State.receive, body, good, complete]

theorem State.checkFrame_bad {check : Byte} (bad : byteSum (s.link l).buffer + check ≠ 0) :
    s.checkFrame l check =
      s.setLink l { (s.link l).countDiscard with rx := .hunt, buffer := [], gapAt := none } := by
  have sum : frameSumsToZero (s.link l).buffer check = false := decide_eq_false bad
  simp [State.checkFrame, sum]

theorem State.checkFrame_good {check len kind : Byte} {body : List Byte}
    (buffer : (s.link l).buffer = len :: kind :: body) (good : byteSum (len :: kind :: body) + check = 0) :
    s.checkFrame l check = s.dispatch l kind body := by
  simp [State.checkFrame, frameSumsToZero, buffer, good]

theorem State.receive_drain (drain : (s.link l).rx = .drain) :
    s.receive l ch = s.setLink l { s.link l with gapAt := gapFrom s.tick } := by
  simp [State.receive, drain]

theorem State.receive_overrun (busy : (s.link l).rx = .serving ∨ (s.link l).rx = .sending) :
    s.receive l ch = s.setLink l { s.link l with overrun := true } := by
  rcases busy with serving | sending
  · simp [State.receive, serving]
  · simp [State.receive, sending]

/-! ### The gap timer -/

theorem execGapTimerExpiry_due (notHeld : s.startup.resetHeld = false) {due : Nat}
    (running : (s.link l).gapAt = some due) (past : due ≤ s.tick) :
    exec (.gapTimerExpiry l) s = .next (s.setLink l (s.link l).gapExpire) := by
  change execGapTimerExpiry l s = _
  rw [execGapTimerExpiry, State.unlessHeld_of _ _ notHeld, running, timerDue_some, if_pos (by simpa using past)]

theorem execGapTimerExpiry_early
    (h : (s.link l).gapAt = none ∨ ∃ due, (s.link l).gapAt = some due ∧ s.tick < due) :
    exec (.gapTimerExpiry l) s = .next s := by
  have early : timerDue s.tick (s.link l).gapAt = false := by
    rcases h with none | ⟨due, running, ahead⟩
    · rw [none, timerDue_none]
    · rw [running, timerDue_some]
      simpa using ahead
  change execGapTimerExpiry l s = _
  simp [execGapTimerExpiry, State.unlessHeld, early]

end

/-- Settles O7: error characters, then the receiver's table and the timer's expiry row by row. -/
theorem receiverFollowsItsTables : Obligations.ReceiverFollowsItsTables := by
  unfold Obligations.ReceiverFollowsItsTables
  refine ⟨Character.isError_iff, fun l ch s notHeld => ?_⟩
  intro r gap drained becomes
  have received : ∀ t, s.receive l ch = t → exec (.characterReceived l ch) s = .next t := fun t h =>
    (execCharacterReceived_of notHeld l ch).trans (congrArg _ h)
  refine ⟨fun hunt lead good => received _ (State.receive_lead hunt lead good),
    fun hunt noise => received _ (State.receive_noise hunt noise),
    fun length bad => received _ (State.receive_badLength length bad),
    fun length good least most => received _ (State.receive_length length good least most),
    fun body bad => received _ (State.receive_bodyError body bad),
    fun body good len bytes buffer more => received _ (State.receive_byte body good buffer more),
    fun body good len bytes buffer full bad =>
      received _ ((State.receive_check body good buffer full).trans (State.checkFrame_bad bad)),
    fun drain => received _ (State.receive_drain drain), fun busy => received _ (State.receive_overrun busy),
    fun due running past => ⟨fun inFlight => ?_, fun drain => ?_⟩, fun early => execGapTimerExpiry_early early⟩
  · rw [execGapTimerExpiry_due notHeld running past]
    rcases inFlight with length | body
    · rw [LinkRecord.gapExpire, length]; rfl
    · rw [LinkRecord.gapExpire, body]; rfl
  · rw [execGapTimerExpiry_due notHeld running past, LinkRecord.gapExpire, drain]

/-! ### Dispatch -/

section
variable {l : Link} {s : State}

theorem State.dispatch_request {kind : Byte} {body : List Byte} {k : RequestKind} {i : Instr}
    (read : decodeRequest l kind body = .request k i) (free : s.startup.restart = none ∨ i = .status l) :
    s.dispatch l kind body =
      s.setLink l { s.link l with rx := .serving, buffer := [], gapAt := none, serving := some i } := by
  simp only [State.dispatch, read]
  rw [if_neg]
  rcases free with none | status
  · simp [none]
  · simp [status]

theorem State.dispatch_restarting {kind : Byte} {body : List Byte} {k : RequestKind} {i : Instr}
    (read : decodeRequest l kind body = .request k i) (pending : s.startup.restart.isSome = true)
    (other : i ≠ .status l) : s.dispatch l kind body = s.respond l kind .restarting [] := by
  simp only [State.dispatch, read]
  rw [if_pos (by simp [pending, other])]

end

theorem decodeRequest_request {l : Link} {kind : Byte} {body : List Byte} {k : RequestKind} {i : Instr}
    (known : RequestKind.ofCode kind = some k) (read : decodeBody l k body = some i) :
    decodeRequest l kind body = .request k i := by
  simp only [decodeRequest, known, read]

/-- STATUS is the one request read under its kind. -/
theorem eq_status_iff {l : Link} {k : RequestKind} {body : List Byte} {i : Instr}
    (read : decodeBody l k body = some i) : i = .status l ↔ k = .status := by
  constructor
  · rintro rfl
    obtain ⟨_, request⟩ := decodeBody_isRequest read
    cases request
    rfl
  · rintro rfl
    cases body with
    | nil => exact (Option.some.inj read).symm
    | cons => nomatch read

/-- The check byte of a valid frame dispatches its kind and body (R162, R163). -/
theorem execCharacterReceived_check {l : Link} {ch : Character} {len kind : Byte} {body : List Byte} {s : State}
    (notHeld : s.startup.resetHeld = false) (inBody : (s.link l).rx = .body)
    (buffer : (s.link l).buffer = len :: kind :: body) (length : len.toNat = body.length + 1)
    (good : ch.isError = false) (sum : byteSum (len :: kind :: body) + ch.data = 0) :
    exec (.characterReceived l ch) s = .next (s.dispatch l kind body) := by
  rw [execCharacterReceived_of notHeld, State.receive_check inBody good buffer (by simp [length]),
    State.checkFrame_good buffer sum]

/-- Settles O8: the valid frame is dispatched, and dispatch makes R163's checks in their order. -/
theorem validFramesAreDispatched : Obligations.ValidFramesAreDispatched := by
  unfold Obligations.ValidFramesAreDispatched
  intro l ch len kind body s notHeld inBody buffer length good check answers
  have dispatched := execCharacterReceived_check notHeld inBody buffer length good check
  have answered : ∀ c, s.dispatch l kind body = s.respond l kind c [] → answers c := fun c h =>
    ⟨_, dispatched.trans (congrArg _ h), s.respond_changesOnly l _ _ _, State.respond_replies l _ _ _ rfl⟩
  refine ⟨fun unknown => answered _ (by simp only [State.dispatch, decodeRequest, unknown]), fun k known =>
    ⟨fun unread => answered _ (by simp only [State.dispatch, decodeRequest, known, unread]), fun i read =>
      ⟨fun pending other => ?_, fun free => ?_⟩⟩⟩
  · exact answered _ (State.dispatch_restarting (decodeRequest_request known read) pending
      (mt (eq_status_iff read).1 other))
  · rw [dispatched, State.dispatch_request (decodeRequest_request known read) (free.imp_right (eq_status_iff read).2)]

/-! ### A frame received whole -/

/-- The link record in the middle of a frame whose bytes so far are `buffer`, the last of them at `tick` (R160). -/
def LinkRecord.inFrame (tick : Nat) (buffer : List Byte) (r : LinkRecord) : LinkRecord :=
  { r with rx := .body, buffer := buffer, gapAt := gapFrom tick }

@[simp] theorem LinkRecord.inFrame_rx (tick : Nat) (buffer : List Byte) (r : LinkRecord) :
    (r.inFrame tick buffer).rx = .body := rfl

@[simp] theorem LinkRecord.inFrame_buffer (tick : Nat) (buffer : List Byte) (r : LinkRecord) :
    (r.inFrame tick buffer).buffer = buffer := rfl

section
variable {l : Link} {s : State}

@[simp] theorem State.setLink_setLink (q r : LinkRecord) : (s.setLink l q).setLink l r = s.setLink l r := by
  cases l <;> rfl

/-- The bytes that a length byte announces are held one by one (R160). -/
theorem execAll_bytes (notHeld : s.startup.resetHeld = false) (r : LinkRecord) (len : Byte) (bytes held : List Byte)
    (announced : held.length + bytes.length ≤ len.toNat) (after : List Instr) :
    execAll (bytes.map (fun b => .characterReceived l (characterOf b)) ++ after)
        (s.setLink l (r.inFrame s.tick (len :: held))) =
      execAll after (s.setLink l (r.inFrame s.tick (len :: held ++ bytes))) := by
  induction bytes generalizing held with
  | nil => simp
  | cons b bytes ih =>
    rw [List.length_cons] at announced
    have one : exec (.characterReceived l (characterOf b)) (s.setLink l (r.inFrame s.tick (len :: held))) =
        .next (s.setLink l (r.inFrame s.tick (len :: (held ++ [b])))) := by
      rw [execCharacterReceived_of (s := s.setLink l _) notHeld,
        State.receive_byte (len := len) (bytes := held) (by simp) (characterOf_isError b) (by simp) (by omega)]
      simp [LinkRecord.inFrame]
    have room : (held ++ [b]).length + bytes.length ≤ len.toNat := by
      rw [List.length_append, List.length_singleton]
      omega
    rw [List.map_cons, List.cons_append, execAll_cons one, ih _ room]
    simp

/-- Lead byte and length byte bring a link from HUNT to BODY (R160). -/
theorem execAll_lead (notHeld : s.startup.resetHeld = false) (hunt : (s.link l).rx = .hunt) {len : Byte}
    (least : 1 ≤ len.toNat) (most : len.toNat ≤ 61) (after : List Instr) :
    execAll (.characterReceived l (characterOf 0xC5) :: .characterReceived l (characterOf len) :: after) s =
      execAll after (s.setLink l ((s.link l).inFrame s.tick [len])) := by
  have lead : exec (.characterReceived l (characterOf 0xC5)) s =
      .next (s.setLink l { s.link l with rx := .length, buffer := [], gapAt := gapFrom s.tick }) := by
    rw [execCharacterReceived_of notHeld, State.receive_lead hunt rfl (characterOf_isError _)]
  have length : ∀ r : LinkRecord, r.rx = .length → exec (.characterReceived l (characterOf len)) (s.setLink l r) =
      .next (s.setLink l (r.inFrame s.tick [len])) := fun r h => by
    rw [execCharacterReceived_of (s := s.setLink l r) notHeld,
      State.receive_length (by simpa using h) (characterOf_isError len) least most]
    simp [LinkRecord.inFrame]
  rw [execAll_cons lead, execAll_cons (length _ rfl)]
  rfl

end

theorem byteSum_check (counted : List Byte) : byteSum counted + (0 - byteSum counted) = 0 := by
  bv_omega

/-- Settles O4: lead and length byte, then the bytes of kind and body, then the check byte and dispatch. -/
theorem requestFrameIsReceivedWhole : Obligations.RequestFrameIsReceivedWhole := by
  unfold Obligations.RequestFrameIsReceivedWhole
  intro i l k body s fits request notHeld hunt free
  have short : body.length ≤ 60 := (wellFormed_iff_fits request).1 fits
  have announced : (byteOf (1 + body.length)).toNat = 1 + body.length := byteOf_toNat (by omega)
  have read : decodeRequest l k.code body = .request k i :=
    decodeRequest_request (RequestKind.ofCode_code k) (decodeBody_request request fits)
  generalize lengthByte : byteOf (1 + body.length) = len at announced
  have check : exec (.characterReceived l (characterOf (0 - byteSum (len :: k.code :: body))))
      (s.setLink l ((s.link l).inFrame s.tick (len :: k.code :: body))) =
        .next (s.setLink l { s.link l with rx := .serving, buffer := [], gapAt := none, serving := some i }) := by
    rw [execCharacterReceived_check (s := s.setLink l _) (kind := k.code) (body := body) notHeld
      (by simp) (by simp) (by omega) (characterOf_isError _)
      (byteSum_check _), State.dispatch_request (s := s.setLink l _) read free]
    simp [LinkRecord.inFrame]
  have frame : (requestFrame k body).map (fun b => Instr.characterReceived l (characterOf b)) =
      .characterReceived l (characterOf 0xC5) :: .characterReceived l (characterOf len) ::
        ((k.code :: body).map (fun b => .characterReceived l (characterOf b)) ++
          [.characterReceived l (characterOf (0 - byteSum (len :: k.code :: body)))]) := by
    simp [requestFrame, lengthByte]
  rw [frame, execAll_lead notHeld hunt (by omega) (by omega),
    execAll_bytes notHeld _ _ _ _ (by simp [announced, Nat.add_comm])]
  exact execAll_cons check []

/-! ### The end of a response -/

/-- The end of link `l`'s response recorded for a restart requested on it (R178). -/
theorem Startup.responseEnds_eq (l : Link) (u : Startup) :
    u.responseEnds l =
      { u with
        restart := u.restart.map (fun p => if p.link = l then { p with responseEnded := true } else p) } := by
  obtain ⟨warmupAt, probeSupply, restart, causes, source, rate, held⟩ := u
  unfold Startup.responseEnds
  cases restart with
  | none => rfl
  | some p => by_cases mine : p.link = l <;> simp [mine]

/-- Settles O9: the link freed and the end recorded, then the restart as RESTART_EFFECT has it. -/
theorem responseEndFreesTheLink : Obligations.ResponseEndFreesTheLink := by
  unfold Obligations.ResponseEndFreesTheLink
  refine fun l s notHeld => ⟨fun other => ?_, fun sending => ?_⟩
  · change execResponseEnd l s = _
    rw [execResponseEnd, State.unlessHeld_of _ _ notHeld, if_neg other]
  · intro ended
    have ends : exec (.responseEnd l) s = .next ended.restartIfDue := by
      change execResponseEnd l s = _
      rw [execResponseEnd, State.unlessHeld_of _ _ notHeld, if_pos sending, Startup.responseEnds_eq]
    refine ⟨fun early => ends.trans (congrArg _ (State.restartIfDue_early early)), fun p _ _ _ => ends.trans ?_⟩
    exact (execRestartEffect_eq (s := ended) notHeld).symm

end Sys2Proof.Machine
end

/-! ## The settings store, the reset pin and the state after reset -/

section
/-!
PROOFS. SAVE and the completion of its write (R172, R173, R178), the reset pin held low (R174, R176), and the state
after reset, in order and reached by a full reset (R175, R176).
-/

namespace Sys2Proof.Machine

/-! ### The settings store -/

/-- A snapshot is every setting as its owning block has it (R172, R173). -/
theorem State.snapshot_spec (s : State) :
    (∀ n : Fin 16, s.snapshot.lines[n] = (s.line n).config) ∧ (∀ z : Fin 8, s.snapshot.zones[z] = (s.zone z).active) ∧
      (∀ o : Fin 4, s.snapshot.outs[o] = (s.out o).config) ∧ s.snapshot.rank = s.rank ∧
      ∀ k, s.snapshot.links.get k = (s.cursor k).settings :=
  ⟨fun n => by simp [State.snapshot, State.line], fun z => by simp [State.snapshot, State.zone],
    fun o => by simp [State.snapshot, State.out], rfl, fun k => PerLink.get_map ..⟩

theorem answerSave_idle {s : State} (idle : s.store.state = .idle) :
    answerSave s = { state := s.startWrite, status := .accepted, body := [] } := by
  simp only [answerSave, idle]

theorem answerSave_writing {s : State} (writing : s.store.state ≠ .idle) : answerSave s = refuse s .busy := by
  unfold answerSave
  split
  next idle => exact absurd idle writing
  · rfl

theorem execStoreWriteCompletion_idle {s : State} (idle : s.store.state = .idle) (ok : Bool) :
    execStoreWriteCompletion ok s = .next s := by
  simp [execStoreWriteCompletion, State.unlessHeld, idle]

theorem execStoreWriteCompletion_writing {s : State} (notHeld : s.startup.resetHeld = false) {snapshot : Settings}
    (writing : s.store.state = .writing snapshot) (ok : Bool) :
    execStoreWriteCompletion ok s = .next (s.completeWrite snapshot ok).restartIfDue := by
  simp only [execStoreWriteCompletion, State.unlessHeld_of _ _ notHeld, writing]

/-- The store and the entry that the completion of a write leaves, by the read-back (R173). -/
theorem State.completeWrite_eq (snapshot : Settings) (ok : Bool) (s : State) :
    s.completeWrite snapshot ok =
      { s with
        store :=
          if ok then
            { image := { valid := true, content := snapshot, check := Config.checkValue snapshot }, state := .idle,
              lastResult := some .saved }
          else { image := { s.store.image with valid := false }, state := .idle, lastResult := some .failed }
        queue := s.queue.post s.tick (.store (if ok then .saved else .failed)) } := by
  cases ok <;> rfl

/-- Settles O54: the request by the store's state, and the completion followed by a restart that is then due. -/
theorem saveAndItsCompletion : Obligations.SaveAndItsCompletion := by
  unfold Obligations.SaveAndItsCompletion
  refine fun s => ⟨fun l takes => ⟨fun idle => ?_, fun writing => ?_⟩, fun notHeld ok =>
    ⟨fun idle => execStoreWriteCompletion_idle idle ok, fun snapshot writing => ?_⟩⟩
  · obtain ⟨t, served, responds, replies⟩ := serveRequest_acted takes .save (answerSave_idle idle) rfl
    obtain ⟨lines, zones, outs, rank, links⟩ := s.snapshot_spec
    exact ⟨t, s.snapshot, served, (s.startWrite_changesOnly.trans responds).mono (by decide),
      responds .store (by decide), lines, zones, outs, rank, links, replies⟩
  · exact serveRequest_refused takes .save answerSave .busy [] (answerSave_writing writing)
  · intro stored written
    have completes : exec (.storeWriteCompletion ok) s = .next written.restartIfDue :=
      (execStoreWriteCompletion_writing notHeld writing ok).trans (by rw [State.completeWrite_eq])
    refine ⟨fun waits => ?_, fun _ _ _ => completes.trans (execRestartEffect_eq (s := written) notHeld).symm⟩
    rw [completes, State.restartIfDue_early (s := written) fun p pending => .inl (waits p pending)]

/-! ### The reset pin -/

/-- Every command but a full reset and the pin held on waits for the part to leave reset (R176). -/
theorem exec_unlessHeld {i : Instr} (notReset : ∀ p x, i ≠ .fullReset p x) (notPin : i ≠ .resetPinHeldLow)
    (s : State) : ∃ f, exec i s = .next (s.unlessHeld f) := by
  cases i with
  | fullReset p x => exact absurd rfl (notReset p x)
  | resetPinHeldLow => exact absurd rfl notPin
  | _ => exact ⟨_, rfl⟩

theorem exec_held {i : Instr} {s : State} (held : s.startup.resetHeld = true) (notReset : ∀ p x, i ≠ .fullReset p x)
    (notPin : i ≠ .resetPinHeldLow) : exec i s = .next s := by
  obtain ⟨f, acts⟩ := exec_unlessHeld notReset notPin s
  rw [acts, State.unlessHeld_held s f held]

theorem Store.stopWrite_idle {u : Store} (idle : u.state = .idle) : u.stopWrite = u := by
  simp only [Store.stopWrite, idle]

theorem Store.stopWrite_writing {u : Store} (writing : u.state ≠ .idle) :
    u.stopWrite = { u with image := { u.image with valid := false }, state := .idle } := by
  simp [Store.stopWrite_eq, writing]

/-- Settles O57: the records as the pin leaves them, and each other command waiting for the part to leave reset. -/
theorem resetPinStopsThePart : Obligations.ResetPinStopsThePart := by
  unfold Obligations.ResetPinStopsThePart
  refine fun s => ⟨⟨_, rfl, fun p other => ?_, rfl, Store.stopWrite_idle, Store.stopWrite_writing, rfl, rfl,
    fun l => PerLink.get_map .., fun l => PerLink.get_map .., fun o => ?_⟩, fun held i => exec_held held⟩
  · cases p with
    | store | startup | queue | links | outs => exact absurd (by decide) other
    | _ => rfl
  · simp [State.out]

/-! ### The state after reset -/

/-- An image that no completed write has made valid is refused (R172, R175). -/
theorem Image.load_invalid {i : Image} (invalid : i.valid = false) : i.load = (settingsDefault, .defaults) := by
  simp [Image.load, Image.accepted, invalid]

/-- The defaults loaded for a blank image and START posted are the state after reset (R102, R175, R176). -/
theorem State.resetLoaded_blank_post_start :
    (State.reset.resetLoaded blankImage true 0).post (.start (resetCause true) blankImage.load.2) = State.reset := by
  rw [State.resetLoaded, Image.load_invalid (i := blankImage) rfl]
  decide

/-- No default output follows a demand, so none turns ON after reset (R106, R126). -/
theorem State.startOut_reset : ∀ o : OutId, State.reset.startOut o = State.reset := by decide

/-- A power-on reset of a part whose store has never completed a write gives the state after reset. -/
theorem execFullReset_reset : execFullReset true 0 State.reset = .next State.reset := by
  obtain ⟨t, reset, acts⟩ := execFullReset_acts (s := State.reset) (image := blankImage) rfl true 0
  rw [State.resetLoaded_blank_post_start, List.foldl_fixed' State.startOut_reset] at acts
  rw [reset, acts]

@[simp] theorem State.reset_zone (z : ZoneId) : State.reset.zone z = ZoneRecord.fresh zoneDefault := by
  simp [State.zone, State.reset]

@[simp] theorem State.reset_link (l : Link) : State.reset.link l = LinkRecord.fresh := PerLink.get_all ..

theorem State.reset_queueOk : State.reset.QueueOk :=
  Queue.ok_of_start rfl rfl (by decide) (.all linkDefault) (fun l => by simp [linkDefault])
    (fun l => by simp [State.reset, CursorRecord.fresh])

/-- The default zones name no line, so no role of a line is broken (R2, R13). -/
theorem State.reset_rolesOk : State.reset.RolesOk := by
  have only : ∀ z, ∀ c ∈ (State.reset.zone z).configs, c = zoneDefault := fun z c named => by
    rw [State.reset_zone] at named
    exact List.mem_singleton.1 named
  refine ⟨fun z y _ c named _ _ n air => ?_, fun z c named => ⟨fun n air => ?_, fun n surface => ?_⟩⟩ <;>
    obtain rfl := only z c named
  · exact nomatch air
  · exact nomatch air
  · exact nomatch surface

theorem State.reset_zonesOk : State.reset.ZonesOk := fun z => by
  rw [State.reset_zone]
  exact ZoneRecord.fresh_ok (by decide)

theorem State.reset_linksOk : State.reset.LinksOk := fun l => by
  rw [State.reset_link]
  exact LinkRecord.fresh_ok

theorem State.reset_startupOk : State.reset.StartupOk := ⟨fun writes => absurd rfl writes, rfl, nofun⟩

/-- Settles O60: the full reset that gives the state, and each block in order as a full reset leaves it. -/
theorem resetStateIsInOrder : Obligations.ResetStateIsInOrder := by
  unfold Obligations.ResetStateIsInOrder
  exact ⟨⟨State.reset_queueOk, State.reset_rolesOk, State.reset_zonesOk, execFullReset_linesOk execFullReset_reset,
    execFullReset_outsOk execFullReset_reset, State.reset_linksOk, State.reset_startupOk⟩, execFullReset_reset⟩

end Sys2Proof.Machine
end

/-! ## The command at the front of the queue -/

section
/-!
PROOFS. What a step does while a command waits; `step_idle` says the other case.
-/

namespace Sys2Proof.Machine

/-- A waiting command leaves the queue before it runs (notes/assumptions/2.md). -/
theorem step_front {s : State} {i : Instr} {rest : List Instr} (h : s.pending = i :: rest) :
    step s = exec i { s with pending := rest } := by
  rw [step, h]

/-- Settles O1: `step_front` for a state whose queue is written out. -/
theorem stepRunsTheFrontCommand : Obligations.StepRunsTheFrontCommand := by
  unfold Obligations.StepRunsTheFrontCommand
  exact fun i rest s => step_front (s := { s with pending := i :: rest }) rfl

end Sys2Proof.Machine
end
